-- ==== Sys2Proof/Word.lean ====
section
/-! DEFINITION. The widths the manual treats as bits: data bytes, table words, identifiers, and the
time base. Arithmetic of the HC-82 is on integers (00_scope.md, Arithmetic), so values are Int or Nat. -/

namespace Sys2Proof

/-- A data byte of a frame (00_scope.md, Terms: a frame has 0 to 8 data bytes). -/
abbrev Byte := BitVec 8

/-- A table word: 6 bytes, read as one 48-bit little-endian value, byte 0 holding bits 0 to 7 (R190). -/
abbrev TWord := BitVec 48

/-- An 11-bit CAN identifier. -/
abbrev Ident := BitVec 11

/-- A point of time, or a deadline, in counts of the 1 MHz time base derived from the crystal
(section 10.9; log 1). -/
abbrev Time := Nat

/-- A timer: stopped (or passed), or running to a deadline (log 1). -/
abbrev Timer := Option Time

end Sys2Proof
end

