-- ==== Sys2Proof/Syntax.lean ====
section
/-! DEFINITION. The commands of the HC-82: one constructor per row of spec/opcode_table.json, with the
operands the row's rule speaks of. The table gives no row bits. -/

namespace Sys2Proof

/-- The two links; the link index of fault indexes is 0 for T and 1 for V (chapter 10). -/
inductive Link where
  | t
  | v
  deriving DecidableEq, Repr

/-- The kinds of a fault entry (R177). -/
inductive FaultKind where
  | signalLost
  | linkSuspect
  | linkFailed
  | passageDrop
  | cmdSupervision
  | shiftSyncTimeout
  | facNoRelease
  | draftChannel
  | trailerLine
  | safeStopLatched
  deriving DecidableEq, Repr

/-- A data frame with an 11-bit identifier as it arrives on a link: its DLC code (a code of 9 to 15 is taken
as a DLC of 8, R156) and its data bytes. -/
structure RxFrame where
  ident : Ident
  dlcCode : Fin 16
  bytes : List Byte
  deriving DecidableEq, Repr

/-- A management request frame without its identifier 0x7B0 and without byte 0, the request code, which
the row gives (R181). -/
structure ReqFrame where
  dlcCode : Fin 16
  rest : List Byte
  deriving DecidableEq, Repr

/-- The commands. `time` is the arrival time of a frame on the time base (R4, log 1). `early` says that the
frame was passed to the Frame Intake before the last change of the Intake Map in use (R1, R15, log 15). `edges` holds,
for each rising edge that the edge counter may count in the measurement that ends, the value of the time counter at that edge,
in the order the edges are taken (R111, R112, log 17). -/
inductive Instr where
  -- resets (R173, R188)
  | powerOnReset
  | pinReset
  | resetEnd
  | restartBegin
  -- received frames (R2, R12, R156, R157, R174)
  | signalFrame (time : Time) (link : Link) (early : Bool) (frame : RxFrame)
  | operatorCommand (time : Time) (link : Link) (early : Bool) (frame : RxFrame)
  | unmatchedFrame (time : Time) (link : Link) (early : Bool) (frame : RxFrame)
  | otherFrameReceived (link : Link)
  | frameRxError (link : Link)
  -- management requests (R181)
  | statusQuery (time : Time) (code : Byte) (req : ReqFrame)
  | enterSetup (time : Time) (req : ReqFrame)
  | leaveSetup (time : Time) (req : ReqFrame)
  | selectTable (time : Time) (req : ReqFrame)
  | writeWords (time : Time) (req : ReqFrame)
  | readWords (time : Time) (req : ReqFrame)
  | commitTable (time : Time) (req : ReqFrame)
  | faultAck (time : Time) (req : ReqFrame)
  | captureZero (time : Time) (req : ReqFrame)
  | restart (time : Time) (req : ReqFrame)
  -- transmission (R157, R159, R163)
  | transmitOffer (link : Link)
  | txSuccess (link : Link)
  | txError (link : Link)
  | arbitrationLost (link : Link)
  | busOffRecovery (link : Link)
  -- link timers (R160, R162)
  | linkSuspectTimeout (link : Link)
  | linkFailedTimeout (link : Link)
  | passageDropTimeout (link : Link)
  -- slot timers (R13, R14)
  | slotTimeout (slot : Fin 16)
  | slotHoldExpiry (slot : Fin 16)
  -- motion and gear selection (R32, R52, R54, R56)
  | standstillTimerExpiry
  | shuttlePendingExpiry
  | holdOffExpiry
  | deferralTimerExpiry
  -- clutch shift engine (R59, R65, R70)
  | clutchStep
  | fillWaitTimeout
  | syncTimeout
  -- front axle (R101, R102, R104, R107)
  | facPulseEnd
  | facFillEnd
  | dwellExpiry
  | brakeHoldExpiry
  | releaseCheckExpiry
  -- draft capture (R111, R112)
  | refGateEnd (edges : List Nat)
  | refOverrange
  | sensorMeasurementEnd (edges : List Nat)
  | sensorStall
  -- hitch, trailer, emission (R121, R147, R151, R154, R165)
  | hitchControlStep
  | brakeStep
  | stretchTailExpiry
  | lineCheckExpiry
  | emissionTimer
  -- mode, supervision, faults (R170, R172, R175, R177)
  | busOffTimerExpiry
  | runTimerExpiry
  | lateTimerExpiry
  | faultAgeTick (kind : FaultKind) (index : Fin 16)
  -- draft capture, first edge (R112)
  | firstEdge
  deriving DecidableEq, Repr

end Sys2Proof
end

