-- ==== Sys2Proof/Decode.lean ====
section
/-! DEFINITION. The words of spec/opcode_table.json: the table gives bits to no row, so no word spells a
command. -/

namespace Sys2Proof

/-- The command that a word spells by the table's bits: none, because no row of the table gives bits. -/
def decodeTableWord (_nbits _w : Nat) : Option Instr := none

end Sys2Proof
end

