-- ==== Sys2Proof/Config.lean ====
section
/-! DEFINITION. What an implementation fixes and the one free value. -/

namespace Sys2Proof

/-- FREE VALUE (log 5). The events that one command brings are taken in any order (R94). Applied to the counter
`State.free` it picks among the outcomes of the orders. -/
opaque Config.freeOrder : Nat → Nat

/-- The most events one command takes from `State.notices` (log 7). What is left over waits for the next command. -/
def Config.settleFuel : Nat := 64

/-- Counts of the time base in a millisecond. -/
def Config.msTicks : Nat := 1000

/-- Clutch step timer, ms (R59). -/
def Config.clutchStepMs : Nat := 10
/-- Control step timer of the hitch, ms (R121). -/
def Config.controlStepMs : Nat := 20
/-- Brake step timer, ms (R151). -/
def Config.brakeStepMs : Nat := 10
/-- Emission timer, ms (R165). -/
def Config.emissionMs : Nat := 100
/-- Standstill timer, ms (R32). -/
def Config.standstillMs : Nat := 500
/-- Release check timer, ms (R107). -/
def Config.releaseCheckMs : Nat := 500
/-- Line check timer, ms (R154). -/
def Config.lineCheckMs : Nat := 300
/-- Silence times, ms (R160). -/
def Config.suspectMs : Nat := 200
def Config.failedMs : Nat := 1000
/-- Drop timer, ms (R162). -/
def Config.dropMs : Nat := 1000
/-- Bus-off timer, ms (R170). -/
def Config.busOffMs : Nat := 500
/-- Run timer, ms (R172). -/
def Config.runMs : Nat := 600000
/-- Wait of a pending restart, ms (R188). -/
def Config.restartMs : Nat := 100
/-- Age timer of a fault entry, ms (R177). -/
def Config.ageMs : Nat := 1000

end Sys2Proof
end

