-- ==== Sys2Proof/Machine/Fields.lean ====
section
/-! DEFINITION. Bit fields, signs and byte order of table words and frames (R189, R190). -/

namespace Sys2Proof.Machine

/-- The `len` bits of a word from bit `lo` on. -/
def fieldOf (w : TWord) (lo len : Nat) : Nat := w.toNat / 2 ^ lo % 2 ^ len

/-- Byte `k` of a word; byte 0 holds bits 0 to 7 (R190). -/
def byteOf (w : TWord) (k : Nat) : Nat := fieldOf w (8 * k) 8

/-- The two bytes `k` and `k + 1` of a word, low byte first (R189). -/
def halfOf (w : TWord) (k : Nat) : Nat := fieldOf w (8 * k) 16

/-- A number of `bits` bits read in two's complement (R5, R189). -/
def signedOf (n bits : Nat) : Int := if n < 2 ^ (bits - 1) then (n : Int) else (n : Int) - 2 ^ bits

/-- The word with the `len` bits from bit `lo` on replaced. -/
def withField (w : TWord) (lo len v : Nat) : TWord :=
  BitVec.ofNat 48 (w.toNat - fieldOf w lo len * 2 ^ lo + v % 2 ^ len * 2 ^ lo)

/-- A word from its bytes, byte 0 first. -/
def wordOf (b0 b1 b2 b3 b4 b5 : Nat) : TWord :=
  BitVec.ofNat 48 (b0 + b1 * 2 ^ 8 + b2 * 2 ^ 16 + b3 * 2 ^ 24 + b4 * 2 ^ 32 + b5 * 2 ^ 40)

/-- A word from three 2-byte fields, low byte first. -/
def wordOfHalves (h0 h1 h2 : Nat) : TWord := BitVec.ofNat 48 (h0 + h1 * 2 ^ 16 + h2 * 2 ^ 32)

/-- The six bytes of a word, byte 0 first (R183, R185). -/
def wordBytes (w : TWord) : List Byte := (List.range 6).map fun k => BitVec.ofNat 8 (byteOf w k)

/-- Word `k` of a table's words; a word beyond the list is 0. -/
def wordAt (ws : List TWord) (k : Nat) : TWord := ws.getD k 0

/-- One byte of a frame from a number (R189: two's complement when signed). -/
def byte1 (v : Int) : Byte := BitVec.ofInt 8 v

/-- Two bytes of a frame, low byte first, two's complement when signed (R189). -/
def bytes2 (v : Int) : List Byte := [BitVec.ofInt 8 v, BitVec.ofInt 8 (v / 256)]

/-- A value brought into a range (00_scope.md, Arithmetic: the final value is clamped). -/
def clamp (lo hi v : Int) : Int := max lo (min hi v)

/-- Data byte `k` of a frame; a byte beyond the list is 0. -/
def dataAt (bs : List Byte) (k : Nat) : Nat := (bs.getD k 0).toNat

end Sys2Proof.Machine
end

