-- ==== Sys2Proof/Machine/ResetContent.lean ====
section
/-! DEFINITION. The reset contents of the ten tables, word by word (section 13.6). -/

namespace Sys2Proof.Machine

/-- An extraction word of the reset Intake Map: UNSIGNED, LITTLE, multiplier 1, shift 0, offset 0 (R21). -/
def resetExtraction (slot start widthCode : Nat) : TWord := wordOf (slot + 16 * widthCode) start 1 0 0 0

/-- Table 1 (R21): entries 0x180, 0x188 and 0x200 on the T-link, timeout 100 ms; entries 3 to 47 all 0. -/
def resetIntakeMap : List TWord :=
  [wordOf 1 5 0x80 0x01 10 3, resetExtraction 5 0 1, resetExtraction 6 2 1, resetExtraction 7 4 0]
    ++ [wordOf 1 6 0x88 0x01 10 3, resetExtraction 2 0 1, resetExtraction 3 2 1, resetExtraction 4 4 1]
    ++ [wordOf 2 8 0x00 0x02 10 0, 0, 0, 0]
    ++ List.replicate 180 0

/-- Table 2 (R10): substitute 0, hold time code 20 (200 ms) for every slot. -/
def resetSlotTable : List TWord := List.replicate 16 (wordOf 0 0 20 0 0 0)

/-- Table 3 (section 10.6). -/
def resetEmission : List TWord :=
  [wordOfHalves 0x110 0x111 0x120, wordOfHalves 0x130 0x300 0x301, wordOfHalves 0x302 0x303 0]

/-- An entry of the reset Gear Table: its clutch set, disabled, ratio 0 (R37). -/
def resetGearEntry (g : Nat) : TWord :=
  if g < 12 then wordOf (g % 4) (g / 4) 0 0 0 0 else wordOf ((g - 12) % 4) ((g - 12) / 4) 1 0 0 0

/-- Table 4 (R37): start gears 0 and 12, K 1, K_hl 1, limit 1200, pending code 20. -/
def resetGear : List TWord :=
  wordOf 0 12 (1 + 16 * 1) (1200 % 256) (1200 / 256) 20 :: (List.range 20).map resetGearEntry

/-- Table 5 (R62): T_fill_wait code 50, every other field 0. -/
def resetClutch : List TWord := BitVec.ofNat 48 (50 * 2 ^ 39) :: List.replicate 20 0

/-- Table 6 (R53): hold-off code 20, brake offset 300, minimum throttle 150, T_defer code 150; every
gear 2100 up and 1500 down. -/
def resetShiftSchedule : List TWord :=
  BitVec.ofNat 48 (20 + 300 * 2 ^ 6 + 150 * 2 ^ 16 + 150 * 2 ^ 26)
    :: List.replicate 12 (wordOfHalves 2100 1500 0)

/-- Table 7 (section 6.2). -/
def resetAxle : List TWord := [wordOfHalves 1400 1600 250, wordOfHalves 150 100 200]

/-- Table 8 (section 8.3). -/
def resetHitch : List TWord :=
  [wordOfHalves 8000 8000 8000, wordOf 96 96 (600 % 256) (600 / 256) 48 32,
   wordOf 8 20 (2000 % 256) (2000 / 256) (950 % 256) (950 / 256), wordOfHalves 200 0 0]

/-- Table 9 (section 9.1): points (2000 i, 2000 i). -/
def resetTrailer : List TWord :=
  [wordOfHalves 800 15000 0, wordOf (800 % 256) (800 / 256) 30 (200 % 256) (200 / 256) 0]
    ++ (List.range 8).map fun i => wordOfHalves (2000 * i) (2000 * i) 0

/-- Table 10 (section 11.5): T_min code 1, T_max code 6, trip level 3, recovery count 25. -/
def resetSupervision : List TWord := [wordOf 1 6 3 25 0 0]

end Sys2Proof.Machine
end

