-- ==== Sys2Proof/Machine/State.lean ====
section
/-! DEFINITION. The state of the HC-82 as plain data, block by block (00_scope.md, Block overview), and the
state right after a power-on reset. -/

namespace Sys2Proof.Machine

/-! ### Resets and tables -/

/-- The kinds of reset; also the restart cause (R173). -/
inductive ResetKind where
  | powerOn
  | pin
  | management
  deriving DecidableEq, Repr

/-- The ten tables, by id 1 to 10 (chapter 12). -/
inductive TableId where
  | intakeMap
  | slotTable
  | emission
  | gear
  | clutch
  | shiftSchedule
  | axle
  | hitch
  | trailer
  | supervision
  deriving DecidableEq, Repr

/-- The state of a table (R182, R186). -/
inductive TableState where
  | resetDefault
  | uncommitted
  | committed
  deriving DecidableEq, Repr

/-- A table: its state and its loaded content (R182). -/
structure Table where
  state : TableState
  loaded : List TWord
  deriving DecidableEq, Repr

/-- The ten tables (R182). -/
structure Tables where
  intakeMap : Table
  slotTable : Table
  emission : Table
  gear : Table
  clutch : Table
  shiftSchedule : Table
  axle : Table
  hitch : Table
  trailer : Table
  supervision : Table
  deriving DecidableEq, Repr

/-! ### Frame Intake -/

/-- The freshness state of a slot (section 1.3). -/
inductive SlotState where
  | unmapped
  | waiting
  | fresh
  | held
  | substituted
  deriving DecidableEq, Repr

/-- A signal slot: its state, its last valid update and its running timer (R11 to R14). What the slot
shows follows from the state: the last valid update when FRESH or HELD, else the substitute in use. -/
structure Slot where
  state : SlotState
  last : Int
  timer : Timer
  deriving DecidableEq, Repr

/-- A direction. -/
inductive Dir where
  | f
  | r
  deriving DecidableEq, Repr

/-- Neutral or a direction: the direction request (R16) and the direction state (R39). -/
inductive DirState where
  | n
  | f
  | r
  deriving DecidableEq, Repr

inductive ShiftMode where
  | manual
  | auto
  deriving DecidableEq, Repr

/-- The 4WD mode (section 1.4). -/
inductive DriveMode where
  | off
  | on
  | auto
  deriving DecidableEq, Repr

inductive HeadlandRequest where
  | none
  | out
  | inn
  deriving DecidableEq, Repr

inductive HitchButton where
  | none
  | raise
  | lower
  | stop
  deriving DecidableEq, Repr

/-- The Operator Request Record (section 1.4, R16). -/
structure OperatorRecord where
  direction : DirState
  shiftMode : ShiftMode
  driveMode : DriveMode
  headland : HeadlandRequest
  button : HitchButton
  transport : Bool
  dial : Nat
  mix : Nat
  drop : Nat
  slipLimit : Nat
  lastUp : Option (BitVec 4)
  lastDown : Option (BitVec 4)
  deriving DecidableEq, Repr

/-- The Frame Intake's own state. `mapBefore` holds the words of the map that was in use before the last
change (R1, R15, log 15). -/
structure Intake where
  slots : Vector Slot 16
  record : OperatorRecord
  mapBefore : List TWord
  deriving DecidableEq, Repr

/-! ### Motion Estimator -/

/-- Where v_g was taken from (R22). -/
inductive SpeedSource where
  | radar
  | frontFree
  | axleMin
  | rearOnly
  | none
  deriving DecidableEq, Repr

/-- The Motion Record (R22). -/
structure MotionRecord where
  vg : Int
  source : SpeedSource
  vw : Int
  slip : Int
  slipF : Int
  slipValid : Bool
  standstill : Bool
  coupled : Bool
  deriving DecidableEq, Repr

/-- The Motion Record and the standstill timer (R22, R32). -/
structure Motion where
  record : MotionRecord
  timer : Timer
  deriving DecidableEq, Repr

/-! ### Gear Selector -/

/-- The shuttle flag of StatusDrive (section 13.4). -/
inductive ShuttleFlag where
  | none
  | pending
  | dropped
  deriving DecidableEq, Repr

/-- The shuttle pending record: destination, arrival time, and the end of the pending time (R52). -/
structure ShuttlePending where
  dest : Dir
  arrival : Time
  timer : Timer
  deriving DecidableEq, Repr

/-- The deferral timer (R56). -/
inductive Deferral where
  | stopped
  | running (timer : Timer)
  | expired
  deriving DecidableEq, Repr

/-- The Gear Selector's state (R39). In N the target is the preselection of the preselected direction (R40);
`ownTarget` is the target while the direction state is F or R. `clearAtEnd`: the Gear Table in use
changed while the present order was in flight (R41). -/
structure Gear where
  dirState : DirState
  presel : Dir
  current : Option Nat
  ownTarget : Option Nat
  preF : Option Nat
  preR : Option Nat
  shuttle : Option ShuttlePending
  flag : ShuttleFlag
  holdOff : Timer
  deferral : Deferral
  clearAtEnd : Bool
  deriving DecidableEq, Repr

/-! ### Shift Engine -/

/-- Order types (R84). -/
inductive OrderKind where
  | swap1
  | swap2
  | engage
  | release
  | free
  | shuttle
  deriving DecidableEq, Repr

/-- Phases (R85); NONE is the absence of an order. -/
inductive Phase where
  | waitSupply
  | prepare
  | fill
  | overlap
  | sync
  | lock
  | ramp
  | dump
  deriving DecidableEq, Repr

/-- Order results (R84). -/
inductive OrderResult where
  | completed
  | free
  | forcedLock
  | aborted
  | refusedSupply
  deriving DecidableEq, Repr

/-- The sub-orders of a SHUTTLE (R76). -/
inductive SubOrder where
  | dump
  | free
  | engage
  deriving DecidableEq, Repr

/-- A clutch of the oncoming or offgoing set with the pressure of the last step, kPa. -/
structure Drive where
  clutch : Nat
  kPa : Nat
  deriving DecidableEq, Repr

/-- The shift in flight (R64). `moveOn` and `moveOff` are the speed and range clutches the order exchanges,
taken from the Gear Table at issue; `oncoming` and `offgoing` are the sets of the present (sub-)order with
their pressures, which the order drives while `driving`. `forced`: SYNC ended by T_sync_max (R70).
`ending`: the engagement is being dumped (R81). `partEnd`: the result of a swap part that has ended while
its merged RELEASE still dumps (R80). -/
structure Order where
  kind : OrderKind
  fromGear : Option Nat
  toGear : Option Nat
  dir : Dir
  origin : Dir
  ratioTo : Nat
  moveOn : List Nat
  moveOff : List Nat
  oncoming : List Drive
  offgoing : List Drive
  driving : Bool
  sub : SubOrder
  phase : Phase
  count : Nat
  inRef : Int
  outRef : Int
  flare : Bool
  tieUp : Bool
  throttleHeld : Bool
  freed : Bool
  forced : Bool
  merged : Option Dir
  dump : Option Nat
  ending : Bool
  partEnd : Option OrderResult
  duration : Nat
  lastLocked : Option Nat
  deriving DecidableEq, Repr

/-- The Shift Engine: the shift in flight, the ten commands of the last clutch step in kPa, the rolling
step count and the clutch step timer (R59, R64). -/
structure Shift where
  order : Option Order
  commands : Vector Nat 10
  rolling : BitVec 8
  timer : Timer
  deriving DecidableEq, Repr

/-! ### Fill Arbiter -/

/-- Who holds a fill slot (R86). -/
inductive Holder where
  | free
  | shift
  | fac
  deriving DecidableEq, Repr

/-- The two fill slots and the wait list: the slots a waiting shift request asks, and whether a front axle
request waits (R86). -/
structure Arbiter where
  slot1 : Holder
  slot2 : Holder
  shiftWait : Option Nat
  facWait : Bool
  deriving DecidableEq, Repr

/-! ### Front Axle Controller -/

/-- FAC states (R95). -/
inductive FacState where
  | engaged
  | releaseWait
  | releaseFill
  | released
  deriving DecidableEq, Repr

/-- The Front Axle Controller. `fillKPa` is the present command of a release fill, `holdKPa` the P_hold read
at the grant (R104). A dwell timer that is not running has passed (R101). `noRelease`: the condition
FAC_NO_RELEASE is present (R107, log 26). -/
structure Fac where
  state : FacState
  fillKPa : Nat
  holdKPa : Nat
  pulseTimer : Timer
  fillTimer : Timer
  dwell : Timer
  brakeHold : Timer
  check : Timer
  noRelease : Bool
  deriving DecidableEq, Repr

/-! ### Draft Capture Unit -/

/-- The sequence position (R109). -/
inductive CapturePos where
  | refLeft
  | left
  | refRight
  | right
  deriving DecidableEq, Repr

/-- The draft channels, by fault index REF, L, R (R114). -/
inductive Channel where
  | ref
  | l
  | r
  deriving DecidableEq, Repr

/-- The health of a channel: FAILED or OK, and its runs (R114). -/
structure ChannelHealth where
  failed : Bool
  invalidRun : Nat
  validRun : Nat
  deriving DecidableEq, Repr

inductive DraftQuality where
  | both
  | leftOnly
  | rightOnly
  | none
  deriving DecidableEq, Repr

/-- The Draft Record, with the side values it was formed from (R116). -/
structure DraftRecord where
  dL : Int
  dR : Int
  dTotal : Int
  quality : DraftQuality
  deriving DecidableEq, Repr

/-- The Draft Capture Unit (R109). `counting` is the second stage of a sensor measurement (R112), `gate` the
G kept for the REF measurement in flight (R111); `qL`, `qR` and the REF failures are the cycle results. -/
structure Draft where
  timeCount : Nat
  edgeCount : Nat
  pos : CapturePos
  counting : Bool
  gate : Nat
  eRef : Option Nat
  qL : Option Nat
  qR : Option Nat
  refFailL : Bool
  refFailR : Bool
  chRef : ChannelHealth
  chL : ChannelHealth
  chR : ChannelHealth
  record : DraftRecord
  deriving DecidableEq, Repr

/-! ### Hitch Controller -/

/-- Hitch states (R120). -/
inductive HitchState where
  | startupLock
  | hold
  | control
  | raising
  | lowering
  | transport
  deriving DecidableEq, Repr

/-- A full Headland Memory (R138). `lowering`: the saved hitch state is LOWERING, else CONTROL. -/
structure HeadlandMemory where
  dial : Nat
  lowering : Bool
  gear : Option Nat
  direction : DirState
  deriving DecidableEq, Repr

/-- The Hitch Controller and the Headland Sequencer (R100, R120, R121, R126, R137, R138). -/
structure Hitch where
  state : HitchState
  restore : Option Nat
  correcting : Bool
  memory : Option HeadlandMemory
  override : Bool
  timer : Timer
  deriving DecidableEq, Repr

/-! ### Trailer Brake Controller -/

/-- The source of the trailer command (R152). -/
inductive TrailerSource where
  | none
  | pedal
  | park
  | stretch
  | safeStop
  | latched
  deriving DecidableEq, Repr

/-- The Trailer Brake Controller (R144). `lineFault`: the condition TRAILER_LINE is present (R154, log 26). -/
structure Trailer where
  command : Nat
  source : TrailerSource
  window : Bool
  tail : Timer
  latchedHold : Bool
  lineCheck : Timer
  lineFault : Bool
  timer : Timer
  deriving DecidableEq, Repr

/-! ### Links and Emission -/

/-- Error states (R158, R159). -/
inductive ErrorState where
  | active
  | passive
  | busOff
  deriving DecidableEq, Repr

/-- Silence states (R160). -/
inductive Silence where
  | ok
  | suspect
  | failed
  deriving DecidableEq, Repr

/-- A data frame in a queue or on the bus; its DLC is the number of its data bytes. -/
structure Frame where
  ident : Nat
  data : List Byte
  deriving DecidableEq, Repr

/-- The transmit mailboxes (R161). -/
inductive MailboxId where
  | statusDrive
  | statusMotion
  | faultReport
  | shiftRecord
  | reply
  | clutchA
  | clutchB
  | hitchValve
  | trailerValve
  deriving DecidableEq, Repr

/-- A mailbox: empty or a content, and whether it is pending (R161). -/
structure Mailbox where
  content : Option (List Byte)
  pending : Bool
  deriving DecidableEq, Repr

/-- The nine mailboxes (R161). -/
structure Mailboxes where
  statusDrive : Mailbox
  statusMotion : Mailbox
  faultReport : Mailbox
  shiftRecord : Mailbox
  reply : Mailbox
  clutchA : Mailbox
  clutchB : Mailbox
  hitchValve : Mailbox
  trailerValve : Mailbox
  deriving DecidableEq, Repr

/-- Where an offered frame comes from: a mailbox, or the head of the passage queue (R163). -/
inductive OfferSource where
  | mailbox (id : MailboxId)
  | queue
  deriving DecidableEq, Repr

/-- The frame a controller has offered to the bus. `rewritten`: its mailbox was written since the offer (R161).
`restartDone`: it is the DONE reply of the pending restart (R188). -/
structure Offer where
  frame : Frame
  source : OfferSource
  rewritten : Bool
  restartDone : Bool
  deriving DecidableEq, Repr

/-- A Link Controller (R157 to R163). `silenceStart` is the time of the last counted frame, or of the end of
the reset (R160); none while a reset has stopped it. -/
structure LinkCtl where
  txCount : Nat
  rxCount : Nat
  error : ErrorState
  silence : Silence
  silenceStart : Option Time
  queue : List Frame
  dropTimer : Timer
  offer : Option Offer
  deriving DecidableEq, Repr

/-! ### Mode Controller, Command Supervisor, Fault List, Management Responder -/

/-- Operating states (R167). -/
inductive OpState where
  | unloaded
  | setup
  | run
  | degraded
  | safeStop
  | latched
  deriving DecidableEq, Repr

/-- The Mode Controller (R167, R170, R172). -/
structure Mode where
  op : OpState
  stops : Nat
  cause : ResetKind
  busOffTimer : Timer
  busOffCause : Bool
  runTimer : Timer
  deriving DecidableEq, Repr

/-- The Command Supervisor (R174). `expectLow`: the expected token is 0x3C, else 0xC3. -/
structure Supervisor where
  tripped : Bool
  expectLow : Bool
  errors : Nat
  lastAccepted : Option Time
  late : Timer
  goodRun : Nat
  deriving DecidableEq, Repr

/-- A Fault List entry (R177). -/
structure FaultEntry where
  kind : FaultKind
  index : Nat
  stored : Bool
  count : Nat
  age : Nat
  timer : Timer
  deriving DecidableEq, Repr

/-- The Fault List: entries oldest first, overflow flag, reporting position (R177, R178, R180). -/
structure Faults where
  entries : List FaultEntry
  overflow : Bool
  position : Nat
  deriving DecidableEq, Repr

/-- The cursor (R183). -/
structure Cursor where
  table : TableId
  word : Nat
  deriving DecidableEq, Repr

/-- A zero capture in flight (R187). -/
structure Capture where
  selL : Bool
  selR : Bool
  sumL : Nat
  sumR : Nat
  countL : Nat
  countR : Nat
  cycles : Nat
  deriving DecidableEq, Repr

/-- The Management Responder (R181, R183, R187, R188): `restart` runs while a restart is pending. -/
structure Management where
  cursor : Option Cursor
  capture : Option Capture
  restart : Timer
  deriving DecidableEq, Repr

/-- What a Motion Record update says to its consumers (R28): whether a field changed, whether standstill
changed, whether coupled braking started or ended. -/
structure MotionNews where
  changed : Bool
  standstillChanged : Bool
  brakeStart : Bool
  brakeEnd : Bool
  deriving DecidableEq, Repr

/-- One announcement of the Frame Intake: valid updates, new substitutes, state changes. -/
structure SlotNews where
  valid : List (Fin 16)
  subst : List (Fin 16)
  changed : List (Fin 16)
  deriving DecidableEq, Repr

/-- What a frame hands on: the first frame after a reset counts no presses and starts no action. -/
structure OperatorNews where
  direction : Bool
  shiftMode : Bool
  driveMode : Bool
  transport : Bool
  dial : Bool
  ups : Nat
  downs : Nat
  headland : HeadlandRequest
  button : HitchButton
  deriving DecidableEq, Repr

/-- Events that a command has brought and that no block has taken yet (R94, R167, log 5). -/
inductive Notice where
  /-- The Motion Estimator takes an announcement of slots (R23, R31, R34). -/
  | motion (n : SlotNews)
  /-- The Motion Estimator takes a change of the FAC state (R23, R30). -/
  | refresh
  /-- The Gear Selector and the Shift Engine take a Motion Record update (R28, R35). -/
  | gear (n : MotionNews)
  /-- The Fill Arbiter takes the start of coupled braking (R93). -/
  | brake
  /-- The Fill Arbiter takes SUPPLY_PRESS (R88). -/
  | supply
  /-- The Front Axle Controller makes an evaluation (R97). -/
  | axle
  /-- The Gear Selector and the Shift Engine take a change of the operating state (R42, R43, R83). -/
  | entry (op : OpState)
  /-- The Mode Controller makes a cause evaluation (R170). -/
  | causes
  /-- The Mode Controller makes the test for leaving SAFE_STOP (R171). -/
  | exit
  /-- The Gear Selector takes an accepted operator frame (R44, R45). -/
  | operator (n : OperatorNews)
  /-- The Hitch Controller and the Headland Sequencer take an accepted operator frame (R129). -/
  | hitch (n : OperatorNews)
  /-- The Gear Selector takes the target change of an OUT (R58, R139). -/
  | headlandOut
  /-- The Gear Selector takes the target change of an IN (R58, R140). -/
  | headlandIn (saved : Option Nat) (direction : DirState)
  deriving DecidableEq, Repr

end Sys2Proof.Machine

namespace Sys2Proof.Machine

/-- The state of the HC-82, and the queue of commands that wait. -/
structure State where
  pending : List Instr
  now : Time
  free : Nat
  notices : List Notice
  resetting : Option ResetKind
  rstn : Bool
  neut : Bool
  tables : Tables
  intake : Intake
  motion : Motion
  gear : Gear
  shift : Shift
  arbiter : Arbiter
  fac : Fac
  draft : Draft
  hitch : Hitch
  trailer : Trailer
  tLink : LinkCtl
  vLink : LinkCtl
  mail : Mailboxes
  emission : Timer
  mode : Mode
  supervisor : Supervisor
  faults : Faults
  mgmt : Management
  deriving DecidableEq, Repr

/-- The machine stops with a fault: never. The spec describes no condition that stops the part, so this type
has no constructor; a fault of the spec is an entry of the Fault List (R177). Safe: nothing is hidden behind
a stop. -/
inductive Fault where
  deriving DecidableEq, Repr

/-- Why a command has no meaning. -/
inductive Refusal where
  /-- The command is not modelled yet; raised by an arm of `exec` only. No arm raises it. Safe: no claim about
  such a command could be proved. -/
  | notModelled (mnemonic : String)
  deriving DecidableEq, Repr

/-! ### Reset -/

/-- A slot after reset: slots 2 to 7 WAITING with the 100 ms timeout of the reset map's entries, the
others UNMAPPED (R11, R21). -/
def resetSlot (i : Fin 16) : Slot :=
  if 2 ≤ i.val ∧ i.val ≤ 7 then ⟨.waiting, 0, some (100 * Config.msTicks)⟩ else ⟨.unmapped, 0, none⟩

def resetTable (ws : List TWord) : Table := ⟨.resetDefault, ws⟩

def resetLink : LinkCtl := ⟨0, 0, .active, .ok, some 0, [], none, none⟩

def resetMailbox : Mailbox := ⟨none, false⟩

def resetChannel : ChannelHealth := ⟨false, 0, 0⟩

/-- The machine right after a power-on reset has ended. The time base counts from that end. -/
def State.reset : State where
  pending := []
  now := 0
  free := 0
  notices := []
  resetting := none
  rstn := true
  neut := true
  tables :=
    { intakeMap := resetTable resetIntakeMap
      slotTable := resetTable resetSlotTable
      emission := resetTable resetEmission
      gear := resetTable resetGear
      clutch := resetTable resetClutch
      shiftSchedule := resetTable resetShiftSchedule
      axle := resetTable resetAxle
      hitch := resetTable resetHitch
      trailer := resetTable resetTrailer
      supervision := resetTable resetSupervision }
  intake :=
    { slots := Vector.ofFn resetSlot
      record := ⟨.n, .manual, .on, .none, .none, false, 0, 0, 0, 0, none, none⟩
      mapBefore := resetIntakeMap }
  motion := ⟨⟨0, .none, 0, 0, 0, false, false, false⟩, none⟩
  gear := ⟨.n, .f, none, none, none, none, none, .none, none, .stopped, false⟩
  shift := ⟨none, Vector.replicate 10 0, 0, some (Config.clutchStepMs * Config.msTicks)⟩
  arbiter := ⟨.free, .free, none, false⟩
  fac := ⟨.engaged, 0, 0, none, none, none, none, none, false⟩
  draft :=
    { timeCount := 0, edgeCount := 0, pos := .refLeft, counting := false, gate := 8000, eRef := none
      qL := none, qR := none, refFailL := false, refFailR := false
      chRef := resetChannel, chL := resetChannel, chR := resetChannel
      record := ⟨0, 0, 0, .none⟩ }
  hitch := ⟨.hold, none, false, none, false, some (Config.controlStepMs * Config.msTicks)⟩
  trailer := ⟨0, .none, false, none, false, none, false, some (Config.brakeStepMs * Config.msTicks)⟩
  tLink := resetLink
  vLink := resetLink
  mail :=
    ⟨resetMailbox, resetMailbox, resetMailbox, resetMailbox, resetMailbox, resetMailbox, resetMailbox,
      resetMailbox, resetMailbox⟩
  emission := some (Config.emissionMs * Config.msTicks)
  mode := ⟨.unloaded, 0, .powerOn, none, false, none⟩
  supervisor := ⟨false, true, 0, none, some (60 * Config.msTicks), 0⟩
  faults := ⟨[], false, 0⟩
  mgmt := ⟨none, none, none⟩

end Sys2Proof.Machine
end

