-- ==== Sys2Proof/Machine/Ops.lean ====
section
/-! DEFINITION. The named operations every block uses: the time base and timers, the tables in use, the
signal slots, the mailboxes, the Fault List, events in any order. -/

namespace Sys2Proof.Machine

/-! ### Time (log 1) -/

/-- The deadline of a timer that starts now with `ms`. -/
def State.after (s : State) (ms : Nat) : Timer := some (s.now + ms * Config.msTicks)

/-- Where the time counter of the Draft Capture Unit stops: at the gate in a REF measurement, at 65535 in a
sensor measurement (R111, R112). -/
def Draft.limit (d : Draft) : Nat :=
  match d.pos with
  | .refLeft => d.gate
  | .refRight => d.gate
  | .left => 65535
  | .right => 65535

/-- The time counter counts the time base (R111, R112). -/
def Draft.count (d : Draft) (n : Nat) : Draft := { d with timeCount := min (max d.limit d.timeCount) (d.timeCount + n) }

/-- An event at a stated time: the time base moves on to it and never back, and the time counter with it. -/
def State.atTime (s : State) (t : Time) : State :=
  { s with now := max s.now t, draft := s.draft.count (t - s.now) }

/-- The expiry of a timer: the time base moves on to its deadline. -/
def State.expire (s : State) (t : Timer) : State := s.atTime (t.getD s.now)

/-- The next deadline of a periodic timer. -/
def State.nextPeriod (s : State) (t : Timer) (ms : Nat) : Timer :=
  some (t.getD s.now + ms * Config.msTicks)

/-- A timer is running. -/
def running (t : Timer) : Bool := t.isSome

/-- The command takes effect unless a reset is in progress: then neither link moves a frame, no timer runs and
no frame is handed to any block (R173, log 4). -/
def State.unlessReset (s : State) (f : State → State) : State := if s.resetting.isSome then s else f s

/-- Do `f` when `c` holds. -/
def State.onlyIf (s : State) (c : Bool) (f : State → State) : State := if c then f s else s

/-- Events that a block brings wait until they are taken (log 7). -/
def State.announceAll (ns : List Notice) (s : State) : State := { s with notices := s.notices ++ ns }

def State.announce (n : Notice) (s : State) : State := s.announceAll [n]

/-! ### Events in any order (R94, R108; log 5) -/

/-- The kind of an event. Events of one kind are taken in the order in which they were brought (log 7). -/
def Notice.kind : Notice → Nat
  | .motion _ => 0
  | .refresh => 1
  | .gear _ => 2
  | .brake => 3
  | .supply => 4
  | .axle => 5
  | .entry _ => 6
  | .causes => 7
  | .exit => 8
  | .operator _ => 9
  | .hitch _ => 10
  | .headlandOut => 11
  | .headlandIn _ _ => 12

/-- Each event that can be taken next, with those left: the first of each kind. -/
def takeable : List Notice → List (Notice × List Notice)
  | [] => []
  | n :: ns => (n, ns) :: ((takeable ns).filter fun p => p.1.kind != n.kind).map fun p => (p.1, n :: p.2)

/-- The states of a list without repetition. -/
def different : List State → List State
  | [] => []
  | s :: ss => let r := different ss; if s ∈ r then r else s :: r

/-- One of the outcomes of events taken in all their orders: the free value picks among different ones, and its counter
moves on so that the next pick is a new one. -/
def State.pick (s : State) : List State → State
  | [] => s
  | [t] => t
  | t :: ts => { (t :: ts).getD (Config.freeOrder s.free % (t :: ts).length) t with free := s.free + 1 }

/-! ### Tables (R182) -/

def TableId.ofNat? : Nat → Option TableId
  | 1 => some .intakeMap
  | 2 => some .slotTable
  | 3 => some .emission
  | 4 => some .gear
  | 5 => some .clutch
  | 6 => some .shiftSchedule
  | 7 => some .axle
  | 8 => some .hitch
  | 9 => some .trailer
  | 10 => some .supervision
  | _ => none

def TableId.toNat : TableId → Nat
  | .intakeMap => 1
  | .slotTable => 2
  | .emission => 3
  | .gear => 4
  | .clutch => 5
  | .shiftSchedule => 6
  | .axle => 7
  | .hitch => 8
  | .trailer => 9
  | .supervision => 10

def TableId.all : List TableId :=
  [.intakeMap, .slotTable, .emission, .gear, .clutch, .shiftSchedule, .axle, .hitch, .trailer, .supervision]

/-- The size of a table in words (chapter 12). -/
def TableId.size : TableId → Nat
  | .intakeMap => 192
  | .slotTable => 16
  | .emission => 3
  | .gear => 21
  | .clutch => 21
  | .shiftSchedule => 13
  | .axle => 2
  | .hitch => 4
  | .trailer => 10
  | .supervision => 1

/-- The reset content of a table (section 13.6). -/
def TableId.resetWords : TableId → List TWord
  | .intakeMap => resetIntakeMap
  | .slotTable => resetSlotTable
  | .emission => resetEmission
  | .gear => resetGear
  | .clutch => resetClutch
  | .shiftSchedule => resetShiftSchedule
  | .axle => resetAxle
  | .hitch => resetHitch
  | .trailer => resetTrailer
  | .supervision => resetSupervision

def Tables.get (ts : Tables) : TableId → Table
  | .intakeMap => ts.intakeMap
  | .slotTable => ts.slotTable
  | .emission => ts.emission
  | .gear => ts.gear
  | .clutch => ts.clutch
  | .shiftSchedule => ts.shiftSchedule
  | .axle => ts.axle
  | .hitch => ts.hitch
  | .trailer => ts.trailer
  | .supervision => ts.supervision

def Tables.put (ts : Tables) (id : TableId) (t : Table) : Tables :=
  match id with
  | .intakeMap => { ts with intakeMap := t }
  | .slotTable => { ts with slotTable := t }
  | .emission => { ts with emission := t }
  | .gear => { ts with gear := t }
  | .clutch => { ts with clutch := t }
  | .shiftSchedule => { ts with shiftSchedule := t }
  | .axle => { ts with axle := t }
  | .hitch => { ts with hitch := t }
  | .trailer => { ts with trailer := t }
  | .supervision => { ts with supervision := t }

/-- The words of a table in use: the loaded content when COMMITTED, the reset content otherwise (R182). -/
def Table.inUse (t : Table) (id : TableId) : List TWord :=
  match t.state with
  | .committed => t.loaded
  | .resetDefault => id.resetWords
  | .uncommitted => id.resetWords

def State.table (s : State) (id : TableId) : Table := s.tables.get id

def State.inUse (s : State) (id : TableId) : List TWord := (s.table id).inUse id

def State.setTable (s : State) (id : TableId) (t : Table) : State :=
  { s with tables := s.tables.put id t }

/-! ### Signal slots (R9, R10) -/

/-- The range of a slot (R9). -/
def slotRange (i : Fin 16) : Int × Int :=
  match i.val with
  | 0 => (0, 4000)
  | 1 => (0, 5000)
  | 2 => (0, 6000)
  | 3 => (0, 6000)
  | 4 => (0, 6000)
  | 5 => (0, 20000)
  | 6 => (0, 20000)
  | 7 => (0, 1)
  | 8 => (0, 1000)
  | 9 => (0, 1000)
  | 10 => (-600, 600)
  | 11 => (0, 1000)
  | 12 => (0, 20000)
  | 13 => (0, 3000)
  | 14 => (0, 3000)
  | _ => (0, 1)

def engSpeed : Fin 16 := 0
def outSpeed : Fin 16 := 1
def wheelRear : Fin 16 := 2
def wheelFront : Fin 16 := 3
def radar : Fin 16 := 4
def brakeL : Fin 16 := 5
def brakeR : Fin 16 := 6
def park : Fin 16 := 7
def clutchPedal : Fin 16 := 8
def throttle : Fin 16 := 9
def steer : Fin 16 := 10
def hitchPos : Fin 16 := 11
def trailerLine : Fin 16 := 12
def facPress : Fin 16 := 13
def supplyPress : Fin 16 := 14
def trailerCoupled : Fin 16 := 15

def State.slot (s : State) (i : Fin 16) : Slot := s.intake.slots[i]

def State.setSlot (s : State) (i : Fin 16) (x : Slot) : State :=
  { s with intake := { s.intake with slots := s.intake.slots.set i x } }

/-- A slot that shows its last valid update: FRESH or HELD (section 1.3; "usable" of section 2.1). -/
def SlotState.usable : SlotState → Bool
  | .fresh => true
  | .held => true
  | .unmapped => false
  | .waiting => false
  | .substituted => false

def State.usable (s : State) (i : Fin 16) : Bool := (s.slot i).state.usable

/-- The substitute of a slot in a Slot Table (R10, section 13.5: bytes 0 and 1, signed). -/
def substituteOf (ws : List TWord) (i : Fin 16) : Int := signedOf (halfOf (wordAt ws i.val) 0) 16

/-- The hold time of a slot in a Slot Table, ms (R10: byte 2, 10 ms units). -/
def holdMsOf (ws : List TWord) (i : Fin 16) : Nat := byteOf (wordAt ws i.val) 2 * 10

/-- The value a slot shows in its present state (R9, section 1.3). -/
def State.shown (s : State) (i : Fin 16) : Int :=
  if s.usable i then (s.slot i).last else substituteOf (s.inUse .slotTable) i

/-- The value shown, as a number of steps or kPa: every slot but STEER shows 0 or more. -/
def State.shownNat (s : State) (i : Fin 16) : Nat := (s.shown i).toNat

/-! ### Links -/

def State.link (s : State) : Link → LinkCtl
  | .t => s.tLink
  | .v => s.vLink

def State.setLink (s : State) (l : Link) (c : LinkCtl) : State :=
  match l with
  | .t => { s with tLink := c }
  | .v => { s with vLink := c }

end Sys2Proof.Machine

namespace Sys2Proof

def Link.other : Link → Link
  | .t => .v
  | .v => .t

/-- The link index of fault indexes (chapter 10). -/
def Link.index : Link → Nat
  | .t => 0
  | .v => 1

end Sys2Proof

namespace Sys2Proof.Machine

/-! ### Mailboxes (R161) -/

def Mailboxes.get (m : Mailboxes) : MailboxId → Mailbox
  | .statusDrive => m.statusDrive
  | .statusMotion => m.statusMotion
  | .faultReport => m.faultReport
  | .shiftRecord => m.shiftRecord
  | .reply => m.reply
  | .clutchA => m.clutchA
  | .clutchB => m.clutchB
  | .hitchValve => m.hitchValve
  | .trailerValve => m.trailerValve

def Mailboxes.put (m : Mailboxes) (id : MailboxId) (b : Mailbox) : Mailboxes :=
  match id with
  | .statusDrive => { m with statusDrive := b }
  | .statusMotion => { m with statusMotion := b }
  | .faultReport => { m with faultReport := b }
  | .shiftRecord => { m with shiftRecord := b }
  | .reply => { m with reply := b }
  | .clutchA => { m with clutchA := b }
  | .clutchB => { m with clutchB := b }
  | .hitchValve => { m with hitchValve := b }
  | .trailerValve => { m with trailerValve := b }

/-- The link a mailbox belongs to (R161). -/
def MailboxId.link : MailboxId → Link
  | .statusDrive => .t
  | .statusMotion => .t
  | .faultReport => .t
  | .shiftRecord => .t
  | .reply => .t
  | .clutchA => .v
  | .clutchB => .v
  | .hitchValve => .v
  | .trailerValve => .v

/-- A write while the mailbox's content is on the bus leaves that frame as it is (R161). -/
def Offer.noteWrite (o : Offer) (id : MailboxId) : Offer :=
  if o.source = .mailbox id then { o with rewritten := true } else o

/-- A write replaces the content and makes the mailbox pending (R161). -/
def State.writeMail (s : State) (id : MailboxId) (data : List Byte) : State :=
  let c := s.link id.link
  let s := s.setLink id.link { c with offer := c.offer.map (·.noteWrite id) }
  { s with mail := s.mail.put id ⟨some data, true⟩ }

/-! ### Fault List (R177, R178) -/

def FaultEntry.is (e : FaultEntry) (k : FaultKind) (i : Nat) : Bool := e.kind == k && e.index == i

/-- Remove the oldest STORED entry, if there is one (R178). -/
def dropOldestStored : List FaultEntry → Option (List FaultEntry)
  | [] => none
  | e :: es => if e.stored then some es else (dropOldestStored es).map (e :: ·)

/-- The most entries of the Fault List (R177). -/
def maxEntries : Nat := 16

/-- The list after a raise (R177, R178). -/
def Faults.raised (f : Faults) (k : FaultKind) (i : Nat) (timer : Timer) : Faults :=
  let new : FaultEntry := ⟨k, i, false, 1, 0, timer⟩
  if f.entries.any (·.is k i) then
    { f with entries := f.entries.map fun e =>
        if e.is k i then { e with stored := false, count := min 255 (e.count + 1) } else e }
  else if f.entries.length < maxEntries then { f with entries := f.entries ++ [new] }
  else match dropOldestStored f.entries with
    | some es => { f with entries := es ++ [new] }
    | none => { f with overflow := true }

/-- The list after a report that a condition is gone: an ACTIVE entry becomes STORED (R177). -/
def Faults.cleared (f : Faults) (k : FaultKind) (i : Nat) : Faults :=
  { f with entries := f.entries.map fun e => if e.is k i then { e with stored := true } else e }

/-- A block raises a fault (R177). -/
def State.raise (s : State) (k : FaultKind) (i : Nat) : State :=
  { s with faults := s.faults.raised k i (s.after Config.ageMs) }

/-- A block reports that a condition is gone (R177). -/
def State.gone (s : State) (k : FaultKind) (i : Nat) : State :=
  { s with faults := s.faults.cleared k i }

end Sys2Proof.Machine
end

