-- ==== Sys2Proof/Machine/Operands.lean ====
section
/-! DEFINITION. The operand forms of the HC-82: received frames, the fields of the ten tables decoded at use
(R190, section 13.5), and the extraction of a value from a frame (R5 to R7). -/

namespace Sys2Proof.Machine

/-! ### Received frames -/

/-- The data bytes of a received frame: as many as its DLC says, a DLC code of 9 to 15 counting as 8 (R156).
Bytes the command does not bring are 0 (log 22). -/
def rxData (dlcCode : Fin 16) (bytes : List Byte) : List Byte :=
  (bytes ++ List.replicate 8 0).take (min 8 dlcCode.val)

def rxFrame (f : RxFrame) : Frame := ⟨f.ident.toNat, rxData f.dlcCode f.bytes⟩

/-! ### Intake Map (table 1) -/

inductive EntryKind where
  | unused
  | signal
  | operator
  deriving DecidableEq, Repr

/-- One extraction (section 1.1). -/
structure Extraction where
  slot : Fin 16
  wide : Bool
  big : Bool
  signed : Bool
  start : Nat
  shift : Nat
  mult : Nat
  offset : Int
  deriving DecidableEq, Repr

/-- One entry of the Intake Map (section 1.1); `timeout` in ms. -/
structure MapEntry where
  kind : EntryKind
  link : Link
  forward : Bool
  minDlc : Nat
  ident : Nat
  timeout : Nat
  extractions : List Extraction
  deriving DecidableEq, Repr

def decodeExtraction (w : TWord) : Extraction where
  slot := Fin.ofNat 16 (fieldOf w 0 4)
  wide := fieldOf w 4 1 == 1
  big := fieldOf w 5 1 == 1
  signed := fieldOf w 6 1 == 1
  start := fieldOf w 8 3
  shift := fieldOf w 12 4
  mult := byteOf w 2
  offset := signedOf (halfOf w 4) 16

/-- Entry `n` of a map: words 4n to 4n + 3; extraction words beyond the count are ignored (R190). -/
def mapEntry (ws : List TWord) (n : Nat) : MapEntry :=
  let w := wordAt ws (4 * n)
  { kind := match fieldOf w 0 2 with
      | 1 => .signal
      | 2 => .operator
      | _ => .unused
    link := if fieldOf w 2 2 = 0 then .t else .v
    forward := fieldOf w 4 1 == 1
    minDlc := byteOf w 1
    ident := halfOf w 2
    timeout := byteOf w 4 * 10
    extractions := (List.range (min 3 (byteOf w 5))).map fun k => decodeExtraction (wordAt ws (4 * n + 1 + k)) }

/-- The 48 entries of a map. -/
def mapEntries (ws : List TWord) : List MapEntry := (List.range 48).map (mapEntry ws)

/-- The entry of a map that has a frame's link and identifier, of kind SIGNAL or OPERATOR_COMMAND (R2). -/
def findEntry (ws : List TWord) (l : Link) (ident : Nat) : Option MapEntry :=
  (mapEntries ws).find? fun e => e.kind != .unused && e.link == l && e.ident == ident

/-- The entry whose extraction feeds a slot (R1: at most one in a map in use). -/
def feedingEntry (ws : List TWord) (i : Fin 16) : Option MapEntry :=
  (mapEntries ws).find? fun e => e.kind == .signal && e.extractions.any (·.slot == i)

/-- How a data frame is handled (R2). -/
inductive FrameClass where
  | management
  | unmatched
  | signal (e : MapEntry)
  | operator (e : MapEntry)
  deriving DecidableEq, Repr

/-- The first case of R2's table that applies. -/
def classify (ws : List TWord) (l : Link) (f : Frame) : FrameClass :=
  if l = .t ∧ f.ident = 0x7B0 then .management
  else match findEntry ws l f.ident with
    | none => .unmatched
    | some e =>
      if f.data.length < e.minDlc then .unmatched
      else match e.kind with
        | .operator => .operator e
        | .signal => .signal e
        | .unused => .unmatched

/-- The raw bytes of an extraction as an unsigned number, low half first unless BIG (R5). -/
def Extraction.rawBits (x : Extraction) (data : List Byte) : Nat :=
  if x.wide then
    if x.big then dataAt data x.start * 256 + dataAt data (x.start + 1)
    else dataAt data x.start + dataAt data (x.start + 1) * 256
  else dataAt data x.start

def Extraction.width (x : Extraction) : Nat := if x.wide then 2 else 1

/-- All bytes of the extraction are in the frame (R5). -/
def Extraction.present (x : Extraction) (data : List Byte) : Bool :=
  decide (x.start + x.width ≤ data.length)

/-- The bytes are not all ones (R6). -/
def Extraction.available (x : Extraction) (data : List Byte) : Bool :=
  x.rawBits data != 2 ^ (8 * x.width) - 1

/-- ((raw × multiplier) shifted right) + offset, clamped to the slot's range; the shift rounds toward minus
infinity (R7). -/
def Extraction.value (x : Extraction) (data : List Byte) : Int :=
  let raw : Int := if x.signed then signedOf (x.rawBits data) (8 * x.width) else (x.rawBits data : Int)
  clamp (slotRange x.slot).1 (slotRange x.slot).2 (raw * x.mult / 2 ^ x.shift + x.offset)

/-- The valid updates a frame brings: slot and value of each available extraction (R5 to R7). -/
def extractAll (e : MapEntry) (data : List Byte) : List (Fin 16 × Int) :=
  (e.extractions.filter fun x => x.present data && x.available data).map fun x => (x.slot, x.value data)

/-! ### Emission Table (table 3) -/

/-- The identifier at a position 0 to 7 (section 13.5: three to a word). -/
def emissionIdent (ws : List TWord) (pos : Nat) : Nat := halfOf (wordAt ws (pos / 3)) (2 * (pos % 3))

/-- The position of a mailbox in the Emission Table; the reply always uses 0x7B8 (R161, section 10.6). -/
def MailboxId.position : MailboxId → Option Nat
  | .clutchA => some 0
  | .clutchB => some 1
  | .hitchValve => some 2
  | .trailerValve => some 3
  | .statusDrive => some 4
  | .statusMotion => some 5
  | .faultReport => some 6
  | .shiftRecord => some 7
  | .reply => none

def mailboxIdent (ws : List TWord) (id : MailboxId) : Nat :=
  match id.position with
  | some p => emissionIdent ws p
  | none => 0x7B8

/-! ### Gear Table (table 4) -/

/-- The header of the Gear Table (section 3.1); `pendingMs` in ms. -/
structure GearHeader where
  startF : Nat
  startR : Nat
  k : Nat
  kHl : Nat
  speedLimit : Nat
  pendingMs : Nat
  deriving DecidableEq, Repr

def gearHeader (ws : List TWord) : GearHeader :=
  let w := wordAt ws 0
  ⟨byteOf w 0, byteOf w 1, fieldOf w 16 4, fieldOf w 20 4, halfOf w 3, byteOf w 5 * 100⟩

/-- An entry of the Gear Table (section 3.1). -/
structure GearEntry where
  speed : Nat
  range : Nat
  direction : Nat
  enabled : Bool
  ratio : Nat
  deriving DecidableEq, Repr

def gearEntry (ws : List TWord) (g : Nat) : GearEntry :=
  let w := wordAt ws (g + 1)
  ⟨byteOf w 0, byteOf w 1, byteOf w 2, fieldOf w 24 1 == 1, halfOf w 4⟩

/-- Clutch indexes of a gear's speed and range clutch: S1 to S4 are 0 to 3, RA to RC are 4 to 6. -/
def GearEntry.speedClutch (e : GearEntry) : Nat := e.speed
def GearEntry.rangeClutch (e : GearEntry) : Nat := 4 + e.range

/-- Gear indexes of a direction: 0 to 11 forward, 12 to 19 reverse. -/
def gearsOf : Dir → List Nat
  | .f => List.range 12
  | .r => (List.range 8).map (· + 12)

/-- The ladder of a direction: its enabled gears in ascending index (R37). -/
def ladder (ws : List TWord) (d : Dir) : List Nat := (gearsOf d).filter fun g => (gearEntry ws g).enabled

/-- The place of a gear on a ladder, counted from 0. -/
def placeOn (l : List Nat) (g : Nat) : Option Nat := l.findIdx? (· == g)

/-- A start gear, or NONE when it is not enabled (R41). -/
def startGear (ws : List TWord) (d : Dir) : Option Nat :=
  let h := gearHeader ws
  let g := match d with
    | .f => h.startF
    | .r => h.startR
  if (gearEntry ws g).enabled && (gearsOf d).contains g then some g else none

/-! ### Clutch Profile Table (table 5) -/

/-- The header of the Clutch Profile Table: times in ms, speeds in rpm, pressure in kPa (section 4.2). -/
structure ClutchHeader where
  syncMaxMs : Nat
  syncWindow : Nat
  flare : Nat
  tieUp : Nat
  supplyMin : Nat
  fillWaitMs : Nat
  deriving DecidableEq, Repr

def clutchHeader (ws : List TWord) : ClutchHeader :=
  let w := wordAt ws 0
  ⟨fieldOf w 0 8 * 10, fieldOf w 8 8, fieldOf w 16 7 * 10, fieldOf w 23 7 * 10, fieldOf w 30 9 * 10,
    fieldOf w 39 8 * 10⟩

/-- An entry of the Clutch Profile Table: pressures in kPa, times in ms (section 4.2). -/
structure Profile where
  pMax : Nat
  pPulse : Nat
  tPulse : Nat
  pHold : Nat
  tHold : Nat
  pRamp0 : Nat
  rOn : Nat
  pOffhold : Nat
  rOff : Nat
  adapt : Int
  deriving DecidableEq, Repr

def profile (ws : List TWord) (c : Nat) : Profile :=
  let w := wordAt ws (2 * c + 1)
  let v := wordAt ws (2 * c + 2)
  ⟨byteOf w 0 * 10, byteOf w 1 * 10, byteOf w 2 * 10, byteOf w 3 * 10, byteOf w 4 * 10, byteOf w 5 * 10,
    byteOf v 0 * 10, byteOf v 1 * 10, byteOf v 2 * 10, signedOf (byteOf v 3) 8 * 10⟩

/-- The effective pulse time T' in ms: T_pulse + A, clamped to 10 to 300 (R67). -/
def Profile.pulseMs (p : Profile) : Nat := (clamp 10 300 (p.tPulse + p.adapt)).toNat

/-- The table's words with the adaptation offset of a clutch replaced, in ms (R62, R77). -/
def withAdapt (ws : List TWord) (c : Nat) (ms : Int) : List TWord :=
  ws.set (2 * c + 2) (withField (wordAt ws (2 * c + 2)) 24 8 (BitVec.ofInt 8 (ms / 10)).toNat)

/-! ### Shift Schedule (table 6) -/

structure ScheduleHeader where
  holdOffMs : Nat
  brakeOffset : Nat
  minThrottle : Nat
  deferMs : Nat
  deriving DecidableEq, Repr

def scheduleHeader (ws : List TWord) : ScheduleHeader :=
  let w := wordAt ws 0
  ⟨fieldOf w 0 6 * 100, fieldOf w 6 10, fieldOf w 16 10, fieldOf w 26 9 * 10⟩

/-- Up and down speed of a forward gear, rpm. -/
def scheduleUp (ws : List TWord) (g : Nat) : Nat := halfOf (wordAt ws (g + 1)) 0
def scheduleDown (ws : List TWord) (g : Nat) : Nat := halfOf (wordAt ws (g + 1)) 2

/-! ### Axle, Hitch, Trailer and Supervision Tables (tables 7 to 10) -/

structure AxleTable where
  vOn : Nat
  vOff : Nat
  aSteer : Nat
  slip4wd : Nat
  dwellMs : Nat
  brakeHoldMs : Nat
  deriving DecidableEq, Repr

def axleTable (ws : List TWord) : AxleTable :=
  let w := wordAt ws 0
  let v := wordAt ws 1
  ⟨halfOf w 0, halfOf w 2, halfOf w 4, halfOf v 0, halfOf v 2 * 10, halfOf v 4 * 10⟩

structure HitchTable where
  gate : Nat
  q0L : Nat
  q0R : Nat
  gainL : Nat
  gainR : Nat
  dSpan : Nat
  kH : Nat
  kS : Nat
  deadBand : Nat
  matchWindow : Nat
  lowerInhibit : Nat
  upper : Nat
  correcting : Nat
  deriving DecidableEq, Repr

def hitchTable (ws : List TWord) : HitchTable :=
  let a := wordAt ws 0
  let b := wordAt ws 1
  let c := wordAt ws 2
  let d := wordAt ws 3
  ⟨halfOf a 0, halfOf a 2, halfOf a 4, byteOf b 0, byteOf b 1, halfOf b 2, byteOf b 4, byteOf b 5,
    byteOf c 0, byteOf c 1, halfOf c 2, halfOf c 4, halfOf d 0⟩

/-- The parameters of the Trailer Table (section 9.1). -/
structure TrailerTable where
  pCouple : Nat
  pFull : Nat
  pStretch : Nat
  vStretch : Nat
  tailMs : Nat
  rRel : Nat
  deriving DecidableEq, Repr

def trailerTable (ws : List TWord) : TrailerTable :=
  let a := wordAt ws 0
  let b := wordAt ws 1
  ⟨halfOf a 0, halfOf a 2, halfOf a 4, halfOf b 0, byteOf b 2 * 10, halfOf b 3⟩

/-- The eight points of the brake curve (section 9.1). -/
def curvePoints (ws : List TWord) : List (Nat × Nat) :=
  (List.range 8).map fun i => (halfOf (wordAt ws (i + 2)) 0, halfOf (wordAt ws (i + 2)) 2)

structure SupervisionTable where
  tMinMs : Nat
  tMaxMs : Nat
  trip : Nat
  recovery : Nat
  deriving DecidableEq, Repr

def supervisionTable (ws : List TWord) : SupervisionTable :=
  let w := wordAt ws 0
  ⟨byteOf w 0 * 10, byteOf w 1 * 10, byteOf w 2, byteOf w 3⟩

/-! ### The tables in use -/

def State.gearWords (s : State) : List TWord := s.inUse .gear
def State.clutchHdr (s : State) : ClutchHeader := clutchHeader (s.inUse .clutch)
def State.prof (s : State) (c : Nat) : Profile := profile (s.inUse .clutch) c
def State.axle (s : State) : AxleTable := axleTable (s.inUse .axle)
def State.hitchT (s : State) : HitchTable := hitchTable (s.inUse .hitch)
def State.trailerT (s : State) : TrailerTable := trailerTable (s.inUse .trailer)
def State.superT (s : State) : SupervisionTable := supervisionTable (s.inUse .supervision)

end Sys2Proof.Machine
end

