-- ==== Sys2Proof/Machine/Commit.lean ====
section
/-! DEFINITION. The CRC of a commit (R185) and the commit checks of the ten tables. A check answers the index
of the first failure, or none when the table passes. -/

namespace Sys2Proof.Machine

/-! ### CRC (R185) -/

/-- One shift of the register. -/
def crcShift (c : BitVec 16) : BitVec 16 := if c.msb then (c <<< 1) ^^^ 0x1021#16 else c <<< 1

/-- One byte, most significant bit first. -/
def crcByte (c : BitVec 16) (b : Byte) : BitVec 16 :=
  (List.range 8).foldl (fun c _ => crcShift c) (c ^^^ (b.setWidth 16 <<< 8))

/-- The CRC of a table's words. -/
def crcOf (ws : List TWord) : BitVec 16 := (ws.flatMap wordBytes).foldl crcByte 0xFFFF#16

/-! ### Checks -/

/-- A value outside a range. -/
def outside (lo hi v : Nat) : Bool := decide (v < lo) || decide (hi < v)

/-- The index of the first check that fails. -/
def firstFail : List (Bool × Nat) → Option Nat
  | [] => none
  | (bad, i) :: rest => if bad then some i else firstFail rest

/-- The first number of a list for which a check fails, with its index. -/
def failsAt (l : List Nat) (bad : Nat → Bool) (index : Nat → Nat) : Option Nat := (l.find? bad).map index

/-- The first of several lists of checks that fails. -/
def firstOf : List (Option Nat) → Option Nat
  | [] => none
  | some i :: _ => some i
  | none :: rest => firstOf rest

/-! ### Table 1 (R20) -/

def kindCode (ws : List TWord) (n : Nat) : Nat := fieldOf (wordAt ws (4 * n)) 0 2
def linkCode (ws : List TWord) (n : Nat) : Nat := fieldOf (wordAt ws (4 * n)) 2 2

/-- The slots an entry feeds: those of its extractions. -/
def entrySlots (ws : List TWord) (n : Nat) : List Nat := (mapEntry ws n).extractions.map (·.slot.val)

/-- The slots that the entries before `n` feed. -/
def earlierSlots (ws : List TWord) (n : Nat) : List Nat :=
  ((List.range n).filter fun k => kindCode ws k != 0).flatMap (entrySlots ws)

/-- A slot occurs twice in a list. -/
def repeated : List Nat → Bool
  | [] => false
  | x :: xs => xs.contains x || repeated xs

/-- Check 1: a field out of range. -/
def entryRangeBad (ws : List TWord) (n : Nat) : Bool :=
  let e := mapEntry ws n
  kindCode ws n == 3 || decide (1 < linkCode ws n) || decide (0x7FF < e.ident) || decide (8 < e.minDlc) || e.timeout == 0
    || decide (3 < byteOf (wordAt ws (4 * n)) 5) || e.extractions.any (·.mult == 0)

/-- The checks of one entry, kind UNUSED passed over. -/
def entryFails (ws : List TWord) (n : Nat) : Bool :=
  let e := mapEntry ws n
  let earlier := (List.range n).filter fun k => kindCode ws k != 0
  kindCode ws n != 0 &&
    (entryRangeBad ws n
      || e.ident == 0x7B0 || e.ident == 0x7B8
      || e.extractions.any (fun x => decide (8 < x.start + x.width))
      || (kindCode ws n == 2 && (e.extractions != [] || decide (e.minDlc < 8)))
      || earlier.any (fun k => linkCode ws k == linkCode ws n && (mapEntry ws k).ident == e.ident)
      || (kindCode ws n == 2 && earlier.any fun k => kindCode ws k == 2)
      || (entrySlots ws n).any (earlierSlots ws n).contains || repeated (entrySlots ws n))

/-- A slot is fed by an extraction of a SIGNAL entry. -/
def slotFed (ws : List TWord) (i : Nat) : Bool :=
  (List.range 48).any fun n => kindCode ws n == 1 && (entrySlots ws n).contains i

def checkIntakeMap (ws : List TWord) : Option Nat :=
  firstOf [failsAt (List.range 48) (entryFails ws) id,
    failsAt [0, 1, 2, 5, 6] (fun i => !slotFed ws i) (48 + ·)]

/-! ### Tables 2 and 3 (R10, R164) -/

def checkSlotTable (ws : List TWord) : Option Nat :=
  failsAt (List.range 16) (fun n =>
    let i := Fin.ofNat 16 n
    decide (substituteOf ws i < (slotRange i).1) || decide ((slotRange i).2 < substituteOf ws i)) id

/-- The link of a position of the Emission Table: 0 to 3 are frames of the V-link (section 10.6). -/
def positionLink (pos : Nat) : Link := if pos < 4 then .v else .t

/-- The checks of a position, against the Intake Map in use. -/
def positionFails (map ws : List TWord) (pos : Nat) : Bool :=
  let i := emissionIdent ws pos
  decide (0x7FF < i) || i == 0x7B0 || i == 0x7B8
    || (List.range pos).any (fun p => positionLink p == positionLink pos && emissionIdent ws p == i)
    || (mapEntries map).any (fun e => e.forward && e.kind != .unused && e.link != positionLink pos && e.ident == i)

def checkEmission (map ws : List TWord) : Option Nat := failsAt (List.range 8) (positionFails map ws) id

/-! ### Table 4 (R38) -/

def gearHeaderBad (h : GearHeader) : Bool :=
  outside 0 11 h.startF || outside 12 19 h.startR || outside 1 6 h.k || outside 0 3 h.kHl || outside 0 6000 h.speedLimit
    || outside 500 5000 h.pendingMs

def gearCodeBad (e : GearEntry) : Bool :=
  outside 0 3 e.speed || outside 0 2 e.range || outside 0 1 e.direction || (e.enabled && outside 1 4096 e.ratio)

/-- The direction code of an entry's direction: gears 0 to 11 are forward. -/
def directionOf (g : Nat) : Nat := if g < 12 then 0 else 1

/-- The enabled entries before `g`. -/
def enabledBefore (ws : List TWord) (g : Nat) : List Nat := (List.range g).filter fun k => (gearEntry ws k).enabled

def sameSet (a b : GearEntry) : Bool := a.speed == b.speed && a.range == b.range && a.direction == b.direction

/-- The ratio does not rise above that of the next lower enabled entry of the direction. -/
def ratioBad (ws : List TWord) (g : Nat) : Bool :=
  match ((enabledBefore ws g).filter fun k => directionOf k == directionOf g).getLast? with
  | none => false
  | some k => decide ((gearEntry ws g).ratio ≤ (gearEntry ws k).ratio)

def checkGear (ws : List TWord) : Option Nat :=
  let h := gearHeader ws
  let gears := List.range 20
  firstOf [firstFail [(gearHeaderBad h, 0)],
    failsAt gears (fun g => gearCodeBad (gearEntry ws g)) (· + 1),
    failsAt gears (fun g => (gearEntry ws g).direction != directionOf g) (· + 1),
    failsAt gears (fun g => (gearEntry ws g).enabled
      && (enabledBefore ws g).any fun k => sameSet (gearEntry ws k) (gearEntry ws g)) (· + 1),
    failsAt gears (fun g => (gearEntry ws g).enabled && ratioBad ws g) (· + 1),
    firstFail [(!(gearEntry ws h.startF).enabled, h.startF + 1), (!(gearEntry ws h.startR).enabled, h.startR + 1)]]

/-! ### Tables 5 and 6 (R63, R53) -/

def clutchHeaderBad (h : ClutchHeader) : Bool :=
  outside 100 2000 h.syncMaxMs || outside 10 200 h.syncWindow || outside 0 1000 h.flare || outside 0 1000 h.tieUp
    || outside 0 3000 h.supplyMin || outside 100 2000 h.fillWaitMs

/-- What an entry of any clutch, the FAC too, is checked for. -/
def fillBad (p : Profile) : Bool :=
  outside 10 300 p.tPulse || outside 0 300 p.tHold || decide (p.adapt < -50) || decide (50 < p.adapt)
    || decide (p.pMax < p.pHold)

def profileBad (c : Nat) (p : Profile) : Bool :=
  fillBad p || (c != 9 && (outside 10 200 p.rOn || outside 10 500 p.rOff || decide (p.pMax < p.pRamp0)
    || decide (p.pMax < p.pOffhold)))

def checkClutch (ws : List TWord) : Option Nat :=
  firstOf [firstFail [(clutchHeaderBad (clutchHeader ws), 0)],
    failsAt (List.range 10) (fun c => profileBad c (profile ws c)) (· + 1)]

def scheduleHeaderBad (h : ScheduleHeader) : Bool :=
  outside 500 5000 h.holdOffMs || outside 0 1000 h.brakeOffset || outside 0 1000 h.minThrottle || outside 0 3000 h.deferMs

def checkSchedule (ws : List TWord) : Option Nat :=
  firstOf [firstFail [(scheduleHeaderBad (scheduleHeader ws), 0)],
    failsAt (List.range 12) (fun g => outside 0 4000 (scheduleUp ws g) || outside 0 4000 (scheduleDown ws g)
      || decide (scheduleUp ws g ≤ scheduleDown ws g + 200)) (· + 1)]

/-! ### Tables 7 to 10 (R96, R130, R143, R174) -/

def checkAxle (ws : List TWord) : Option Nat :=
  let t := axleTable ws
  firstFail [
    (outside 0 6000 t.vOn || outside 0 6000 t.vOff || outside 0 600 t.aSteer || decide (t.vOff ≤ t.vOn), 0),
    (outside 0 1000 t.slip4wd || outside 100 10000 t.dwellMs || outside 0 10000 t.brakeHoldMs, 1)]

def checkHitch (ws : List TWord) : Option Nat :=
  let t := hitchTable ws
  firstFail [
    (outside 1000 20000 t.gate || outside 1 65534 t.q0L || outside 1 65534 t.q0R, 0),
    (outside 1 255 t.gainL || outside 1 255 t.gainR || outside 100 4000 t.dSpan || outside 1 255 t.kH
      || outside 1 255 t.kS, 1),
    (outside 0 200 t.deadBand || outside 0 100 t.matchWindow || outside 0 6000 t.lowerInhibit
      || outside 500 1000 t.upper, 2),
    (outside 1 1000 t.correcting, 3)]

/-- Point `i` of the brake curve. -/
def curvePoint (ws : List TWord) (i : Nat) : Nat × Nat := (halfOf (wordAt ws (i + 2)) 0, halfOf (wordAt ws (i + 2)) 2)

def checkTrailer (ws : List TWord) : Option Nat :=
  let t := trailerTable ws
  let pt := curvePoint ws
  let points := List.range 8
  let later := points.tail
  firstOf [
    firstFail [
      (outside 100 5000 t.pCouple || outside 0 15000 t.pFull || outside 0 15000 t.pStretch, 0),
      (outside 0 6000 t.vStretch || outside 0 2000 t.tailMs || outside 10 2000 t.rRel, 1),
      (decide (t.pFull < t.pStretch), 0)],
    failsAt points (fun i => outside 0 20000 (pt i).1 || outside 0 15000 (pt i).2) (· + 2),
    firstFail [((pt 0).1 != 0, 2)],
    failsAt later (fun i => decide ((pt i).1 ≤ (pt (i - 1)).1)) (· + 2),
    failsAt later (fun i => decide ((pt i).2 < (pt (i - 1)).2)) (· + 2),
    failsAt points (fun i => decide (t.pFull < (pt i).2)) (· + 2)]

def checkSupervision (ws : List TWord) : Option Nat :=
  let t := supervisionTable ws
  firstFail [(outside 0 200 t.tMinMs || outside 20 1000 t.tMaxMs || outside 1 15 t.trip || outside 1 255 t.recovery
    || decide (t.tMaxMs ≤ t.tMinMs), 0)]

/-- The commit check of a table; `map` is the Intake Map in use. -/
def commitCheck (id : TableId) (map ws : List TWord) : Option Nat :=
  match id with
  | .intakeMap => checkIntakeMap ws
  | .slotTable => checkSlotTable ws
  | .emission => checkEmission map ws
  | .gear => checkGear ws
  | .clutch => checkClutch ws
  | .shiftSchedule => checkSchedule ws
  | .axle => checkAxle ws
  | .hitch => checkHitch ws
  | .trailer => checkTrailer ws
  | .supervision => checkSupervision ws

end Sys2Proof.Machine
end

