-- ==== Sys2Proof/Machine/Motion.lean ====
section
/-! DEFINITION. The Motion Estimator (chapter 2): ground speed, slip, standstill and coupled braking as
computations on the Motion Record. Who is told of an update stands in Mode.lean. -/

namespace Sys2Proof.Machine

/-- The source of v_g: the first row whose condition holds (R24). -/
def chooseSource (radarOk frontOk rearOk facReleased : Bool) : SpeedSource :=
  if radarOk then .radar
  else if facReleased && frontOk then .frontFree
  else if frontOk && rearOk then .axleMin
  else if rearOk then .rearOnly
  else .none

/-- v_g from its source (R24). -/
def speedOf (src : SpeedSource) (radarV frontV rearV : Int) : Int :=
  match src with
  | .radar => radarV
  | .frontFree => frontV
  | .axleMin => min frontV rearV
  | .rearOnly => rearV
  | .none => 0

/-- Slip is valid with a true ground speed and a usable WHEEL_REAR (R26). -/
def slipValidOf (src : SpeedSource) (rearOk : Bool) : Bool :=
  match src with
  | .radar => rearOk
  | .frontFree => rearOk
  | .axleMin => rearOk
  | .rearOnly => false
  | .none => false

/-- σ in ‰, truncated toward zero and clamped (R25). -/
def slipOf (valid : Bool) (vw vg : Int) : Int :=
  if vw < 50 ∨ valid = false then 0 else clamp (-1000) 1000 (((vw - vg) * 1000).tdiv vw)

/-- σ_f after a recomputation: a filter step in a full one, kept in a refresh, 0 while slip is not valid (R27). -/
def filterOf (full valid : Bool) (slipF slip : Int) : Int :=
  if valid then (if full then slipF + (slip - slipF).tdiv 8 else slipF) else 0

/-- One recomputation of ground speed and slip, full or refresh (R23 to R27). -/
def State.recompute (full : Bool) (s : State) : State :=
  let rearOk := s.usable wheelRear
  let src := chooseSource (s.usable radar) (s.usable wheelFront) rearOk (s.fac.state == .released)
  let vg := speedOf src (s.shown radar) (s.shown wheelFront) (s.shown wheelRear)
  let vw := s.shown wheelRear
  let valid := slipValidOf src rearOk
  let slip := slipOf valid vw vg
  let m := s.motion.record
  let m := { m with vg := vg, source := src, vw := vw, slip := slip, slipValid := valid,
                    slipF := filterOf full valid m.slipF slip }
  { s with motion := { s.motion with record := m } }

/-- The four conditions of standstill (R31). -/
def State.standstillCondition (s : State) : Bool :=
  decide (s.motion.record.vg < 20) && decide (s.motion.record.vw < 20) && decide (s.shown outSpeed < 10)
    && s.motion.record.source != .none

/-- An evaluation of standstill (R32). -/
def State.evalStandstill (s : State) : State :=
  let m := s.motion
  if s.standstillCondition then
    if running m.timer || m.record.standstill then s
    else { s with motion := { m with timer := s.after Config.standstillMs } }
  else { s with motion := { record := { m.record with standstill := false }, timer := none } }

/-- The end threshold of coupled braking: P_couple × 3 / 4, truncated (R33). -/
def coupleEnd (pCouple : Nat) : Nat := pCouple * 3 / 4

/-- Coupled braking after an evaluation (R33). -/
def coupledAfter (was : Bool) (left right : Int) (pCouple : Nat) : Bool :=
  if was then decide ((coupleEnd pCouple : Int) ≤ left) && decide ((coupleEnd pCouple : Int) ≤ right)
  else decide ((pCouple : Int) ≤ left) && decide ((pCouple : Int) ≤ right)

/-- An evaluation of coupled braking (R33, R34). -/
def State.evalCoupled (s : State) : State :=
  let m := s.motion.record
  let c := coupledAfter m.coupled (s.shown brakeL) (s.shown brakeR) s.trailerT.pCouple
  { s with motion := { s.motion with record := { m with coupled := c } } }

/-- The news of an update from the record before and after. -/
def motionNews (before after : MotionRecord) : MotionNews :=
  { changed := before != after
    standstillChanged := before.standstill != after.standstill
    brakeStart := !before.coupled && after.coupled
    brakeEnd := before.coupled && !after.coupled }

end Sys2Proof.Machine
end

