-- ==== Sys2Proof/Machine/Trailer.lean ====
section
/-! DEFINITION. The Trailer Brake Controller (chapter 9): the demands, the trailer command, the stretch
window and the line check. -/

namespace Sys2Proof.Machine

/-- The brake curve at p by linear interpolation: the point i with x_i ≤ p below x_(i+1), the quotient
truncated; y_7 at or above x_7 (R145). -/
def curveAt : List (Nat × Nat) → Nat → Nat
  | [], _ => 0
  | [pt], _ => pt.2
  | a :: b :: rest, p =>
    if p < b.1 then a.2 + (p - a.1) * (b.2 - a.2) / (b.1 - a.1) else curveAt (b :: rest) p

/-- The higher of the two brake pressures shown (R145). -/
def State.brakeP (s : State) : Nat := max (s.shownNat brakeL) (s.shownNat brakeR)

/-- Pedal demand (R145). -/
def State.pedalDemand (s : State) : Nat := curveAt (curvePoints (s.inUse .trailer)) s.brakeP

/-- Park demand: P_full while PARK shows 1 (R146). -/
def State.parkDemand (s : State) : Nat := if s.shown park = 1 then s.trailerT.pFull else 0

/-- Stretch demand (R148). -/
def State.stretchDemand (s : State) : Nat :=
  if (s.trailer.window || running s.trailer.tail) ∧ (s.trailerT.vStretch : Int) ≤ s.motion.record.vg
      ∧ s.shown throttle ≤ 100 ∧ s.shown trailerCoupled = 1 then s.trailerT.pStretch else 0

/-- SAFE_STOP demand (R149). -/
def State.safeStopDemand (s : State) : Nat :=
  if (s.mode.op = .safeStop ∨ s.mode.op = .latched) ∧ (s.trailerT.vStretch : Int) ≤ s.motion.record.vg
  then s.trailerT.pStretch else 0

/-- LATCHED demand: P_full while the latched hold is on (R149). -/
def State.latchedDemand (s : State) : Nat := if s.trailer.latchedHold then s.trailerT.pFull else 0

/-- The largest demand (R150). -/
def State.demand (s : State) : Nat :=
  max s.latchedDemand (max s.parkDemand (max s.safeStopDemand (max s.stretchDemand s.pedalDemand)))

/-- The source: the first of LATCHED, PARK, SAFE_STOP, STRETCH, PEDAL with the largest value; NONE at 0 (R152). -/
def State.demandSource (s : State) : TrailerSource :=
  let d := s.demand
  if d = 0 then .none
  else if s.latchedDemand = d then .latched
  else if s.parkDemand = d then .park
  else if s.safeStopDemand = d then .safeStop
  else if s.stretchDemand = d then .stretch
  else .pedal

/-- The latched hold comes on at the first evaluation in LATCHED that finds standstill 1, and stays on (R149). -/
def State.holdIfLatched (s : State) : State :=
  { s with trailer := { s.trailer with
      latchedHold := s.trailer.latchedHold || (s.mode.op == .latched && s.motion.record.standstill) } }

/-- An evaluation: the command rises to the largest demand at once (R150). -/
def State.trailerEvaluate (s : State) : State :=
  let s := s.holdIfLatched
  { s with trailer := { s.trailer with command := max s.trailer.command s.demand } }

/-- The stretch window opens; a running tail is stopped (R147). -/
def State.openWindow (s : State) : State :=
  ({ s with trailer := { s.trailer with window := true, tail := none } } : State).trailerEvaluate

/-- The stretch window closes; the tail starts, unless T_stretch_tail is 0 (R147). -/
def State.closeWindow (s : State) : State :=
  if s.trailer.window then
    let tail := if s.trailerT.tailMs = 0 then none else s.after s.trailerT.tailMs
    ({ s with trailer := { s.trailer with window := false, tail := tail } } : State).trailerEvaluate
  else s

/-- The command after a brake step: lowered by R_rel and not below D, or D (R151). -/
def steppedCommand (command d rRel : Nat) : Nat := if d < command then max d (command - rRel) else d

/-- The line check threshold: command × 30 / 100, truncated (R154). -/
def lineThreshold (command : Nat) : Nat := command * 30 / 100

/-- A low line pressure at a command of 2000 kPa or more (R154). -/
def State.lineLow (s : State) : Bool :=
  decide (2000 ≤ s.trailer.command) && decide (s.shown trailerLine < (lineThreshold s.trailer.command : Int))

/-- The condition TRAILER_LINE is gone and the check timer stopped (R154). -/
def State.lineOk (s : State) : State :=
  ({ s with trailer := { s.trailer with lineCheck := none, lineFault := false } } : State).gone .trailerLine 0

/-- An evaluation of the line check, while TRAILER_LINE is mapped; becoming UNMAPPED ends it (R154). The timer
does not start again while the condition is present (log 26). -/
def State.lineCheckEval (s : State) : State :=
  if (s.slot trailerLine).state ≠ .unmapped ∧ s.lineLow then
    if running s.trailer.lineCheck || s.trailer.lineFault then s
    else { s with trailer := { s.trailer with lineCheck := s.after Config.lineCheckMs } }
  else s.lineOk

end Sys2Proof.Machine
end

