-- ==== Sys2Proof/Machine/FrontAxle.lean ====
section
/-! DEFINITION. The Front Axle Controller's command, its states, its demand and its release check
(chapter 6). The acts that reach the Fill Arbiter stand in Arbiter.lean. -/

namespace Sys2Proof.Machine

/-- The clutch index of the FAC (R95). -/
def facIndex : Nat := 9

/-- The FAC command: 0 while coupled braking is 1, else as the state gives (R95). -/
def State.facCommand (s : State) : Nat :=
  if s.motion.record.coupled then 0
  else match s.fac.state with
    | .engaged => 0
    | .releaseWait => 0
    | .releaseFill => s.fac.fillKPa
    | .released => (s.prof facIndex).pMax

/-- The condition FAC_NO_RELEASE is gone and the check timer stopped (R107). -/
def State.facCheckOk (s : State) : State :=
  ({ s with fac := { s.fac with check := none, noRelease := false } } : State).gone .facNoRelease 0

/-- The threshold of the release check: P_max × 70 / 100, truncated (R107). -/
def State.facThreshold (s : State) : Nat := (s.prof facIndex).pMax * 70 / 100

/-- An evaluation of the release check, while the FAC is RELEASED and FAC_PRESS is mapped (R107). The timer
does not start again while the condition is present (log 26). -/
def State.facCheckEval (s : State) : State :=
  if s.fac.state = .released then
    if (s.slot facPress).state ≠ .unmapped ∧ s.shown facPress < (s.facThreshold : Int) then
      if running s.fac.check || s.fac.noRelease then s
      else { s with fac := { s.fac with check := s.after Config.releaseCheckMs } }
    else s.facCheckOk
  else s

/-- A change of the FAC state is announced to the Motion Estimator (R95); leaving RELEASED ends the release
check (R107). -/
def State.setFac (st : FacState) (s : State) : State :=
  let s := if s.fac.state = .released ∧ st ≠ .released then s.facCheckOk else s
  ({ s with fac := { s.fac with state := st } } : State).announce .refresh

/-- An engagement with nothing to hand back: ENGAGED, command 0, dwell restarted, fill abandoned (R105, R106). -/
def State.facEngaged (s : State) : State :=
  let s := s.setFac .engaged
  { s with fac := { s.fac with fillKPa := 0, holdKPa := 0, pulseTimer := none, fillTimer := none,
                               dwell := s.after s.axle.dwellMs } }

/-- The grant moves the FAC from RELEASE_WAIT to RELEASE_FILL and starts the fill; with a T_hold of 0 the
command goes from P_pulse straight to P_max (R104). -/
def State.facGranted (s : State) : State :=
  let p := s.prof facIndex
  let s := s.setFac .releaseFill
  { s with fac := { s.fac with
      fillKPa := p.pPulse, holdKPa := p.pHold
      pulseTimer := if p.tHold = 0 then none else s.after p.tPulse
      fillTimer := s.after (p.tPulse + p.tHold) } }

/-! ### Demand (R98, R99) -/

/-- Engagement is forced (R98). -/
def State.facForced (s : State) : Bool :=
  s.motion.record.coupled || s.mode.op != .run || s.intake.record.driveMode == .on

/-- What the mode demands: a position, or that the present one is kept. -/
inductive FacDemand where
  | engage
  | release
  | keep
  deriving DecidableEq, Repr

/-- The AUTO demand: the first row whose condition holds (R99). -/
def autoDemand (t : AxleTable) (override slipValid : Bool) (vg slipF steer : Int) : FacDemand :=
  if override then .release
  else if (t.vOff : Int) < vg then .release
  else if slipValid = true ∧ (t.slip4wd : Int) < slipF ∧ vg < t.vOff then .engage
  else if t.aSteer ≤ steer.natAbs then .release
  else if vg < t.vOn then .engage
  else .keep

/-- The demand of the operator's mode when engagement is not forced (R99). -/
def State.facDemand (s : State) : FacDemand :=
  match s.intake.record.driveMode with
  | .off => .release
  | .on => .engage
  | .auto =>
    let m := s.motion.record
    autoDemand s.axle s.hitch.override m.slipValid m.vg m.slipF (s.shown steer)

end Sys2Proof.Machine
end

