-- ==== Sys2Proof/Machine/Arbiter.lean ====
section
/-! DEFINITION. The Fill Arbiter (chapter 5): requests, decisions, grants, releases and withdrawals, and the
acts of the Front Axle Controller that reach it (R103 to R106). -/

namespace Sys2Proof.Machine

/-! ### Slots (R86) -/

/-- How many slots a holder has; `Holder.free` counts the free ones. -/
def Arbiter.count (a : Arbiter) (h : Holder) : Nat :=
  (if a.slot1 = h then 1 else 0) + (if a.slot2 = h then 1 else 0)

/-- One free slot is granted: the first that is free. -/
def Arbiter.take (a : Arbiter) (h : Holder) : Arbiter :=
  if a.slot1 = .free then { a with slot1 := h }
  else if a.slot2 = .free then { a with slot2 := h }
  else a

/-- A holder gives back all its slots (R91). -/
def Arbiter.giveBack (a : Arbiter) (h : Holder) : Arbiter :=
  { a with slot1 := if a.slot1 = h then .free else a.slot1, slot2 := if a.slot2 = h then .free else a.slot2 }

/-! ### Orders the arbiter looks at -/

def OrderKind.isSwap : OrderKind → Bool
  | .swap1 => true
  | .swap2 => true
  | .engage => false
  | .release => false
  | .free => false
  | .shuttle => false

/-- An engagement is in flight: an ENGAGE, or the ENGAGE sub-order of a SHUTTLE (R64). -/
def Order.engaging (o : Order) : Bool := o.kind == .engage || (o.kind == .shuttle && o.sub == .engage)

/-- A gear index is below another, NONE below nothing. -/
def gearBelow (a b : Option Nat) : Bool :=
  match a, b with
  | some x, some y => decide (x < y)
  | _, _ => false

/-- A downward swap: the to gear has a lower gear index than the from gear (R147). -/
def Order.downSwap (o : Order) : Bool := o.kind.isSwap && gearBelow o.toGear o.fromGear

/-- An upward swap (R46). -/
def Order.upSwap (o : Order) : Bool := o.kind.isSwap && gearBelow o.fromGear o.toGear

/-! ### Grant decisions -/

/-- The supply test (R89). -/
def State.supplyOk (s : State) : Bool := decide ((s.clutchHdr.supplyMin : Int) ≤ s.shown supplyPress)

/-- The grant ends WAIT_SUPPLY: FILL follows for an engagement, PREPARE for the rest, and a downward swap opens
the stretch window (R65, R90, R147). -/
def State.shiftGranted (s : State) : State :=
  match s.shift.order with
  | none => s
  | some o =>
    if o.phase = .waitSupply then
      let o' := { o with phase := if o.engaging then .fill else .prepare, count := 0, driving := true }
      let s : State := { s with shift := { s.shift with order := some o' } }
      if o.downSwap then s.openWindow else s
    else s

/-- Step 1 of a decision (R88). -/
def State.grantShift (s : State) : State :=
  match s.arbiter.shiftWait with
  | none => s
  | some n =>
    if n ≤ s.arbiter.count .free then
      let a := (List.range n).foldl (fun a _ => a.take .shift) s.arbiter
      ({ s with arbiter := { a with shiftWait := none } } : State).shiftGranted
    else s

/-- Step 2 of a decision (R88). A grant that finds the FAC not in RELEASE_WAIT goes back at once (R104). -/
def State.grantFac (s : State) : State :=
  if s.arbiter.facWait ∧ 1 ≤ s.arbiter.count .free ∧ s.arbiter.shiftWait = none then
    if s.fac.state = .releaseWait then
      ({ s with arbiter := { s.arbiter.take .fac with facWait := false } } : State).facGranted
    else { s with arbiter := { s.arbiter with facWait := false } }
  else s

/-- A grant decision: nothing while the supply test fails, else step 1 and then step 2 (R88). -/
def State.decideFill (s : State) : State := if s.supplyOk then s.grantShift.grantFac else s

/-! ### The Shift Engine's acts -/

/-- The Shift Engine asks for slots (R87). -/
def State.shiftRequest (n : Nat) (s : State) : State :=
  ({ s with arbiter := { s.arbiter with shiftWait := some n } } : State).decideFill

/-- The Shift Engine withdraws its waiting request (R92). -/
def State.shiftWithdraw (s : State) : State :=
  ({ s with arbiter := { s.arbiter with shiftWait := none } } : State).decideFill

/-- The Shift Engine releases all its slots (R91). -/
def State.shiftGiveBack (s : State) : State :=
  ({ s with arbiter := s.arbiter.giveBack .shift } : State).decideFill

/-! ### The Front Axle Controller's acts -/

/-- The Front Axle Controller asks for a slot. While coupled braking is 1 the request is withdrawn at its
arrival and handed back (R87, R93, R106). -/
def State.facRequest (s : State) : State :=
  if s.motion.record.coupled then s.facEngaged.decideFill
  else ({ s with arbiter := { s.arbiter with facWait := true } } : State).decideFill

/-- A release decision: RELEASE_WAIT, the dwell restarted, a request placed (R103). -/
def State.facRelease (s : State) : State :=
  let s := s.setFac .releaseWait
  ({ s with fac := { s.fac with dwell := s.after s.axle.dwellMs } } : State).facRequest

/-- An engagement from any release state (R105). -/
def State.facEngage (s : State) : State :=
  match s.fac.state with
  | .engaged => s
  | .releaseWait =>
    ({ s.facEngaged with arbiter := { s.arbiter with facWait := false } } : State).decideFill
  | .releaseFill =>
    ({ s.facEngaged with arbiter := s.arbiter.giveBack .fac } : State).decideFill
  | .released => s.facEngaged

/-- An evaluation of the Front Axle Controller (R97 to R99, R103). -/
def State.facEvaluate (s : State) : State :=
  if s.facForced then s.facEngage
  else match s.facDemand with
    | .keep => s
    | .engage => if running s.fac.dwell then s else s.facEngage
    | .release =>
      if s.fac.state = .engaged ∧ running s.fac.dwell = false ∧ running s.fac.brakeHold = false
      then s.facRelease else s

/-- The Fill Arbiter's act on the start of coupled braking (R93, R106). -/
def State.arbiterBrakeStart (s : State) : State :=
  if s.arbiter.facWait then
    ({ s with arbiter := { s.arbiter with facWait := false } } : State).facEngaged.decideFill
  else if 1 ≤ s.arbiter.count .fac then
    ({ s with arbiter := s.arbiter.giveBack .fac } : State).facEngaged.decideFill
  else s

/-- The post-braking hold: started at the end of coupled braking, stopped at its start; a T_brake_hold of 0
gives no hold (R102). -/
def State.facBrakeNews (n : MotionNews) (s : State) : State :=
  let hold := if n.brakeStart then none
    else if n.brakeEnd then (if s.axle.brakeHoldMs = 0 then none else s.after s.axle.brakeHoldMs)
    else s.fac.brakeHold
  { s with fac := { s.fac with brakeHold := hold } }

/-- The release fill ends: RELEASED, the slot given back, the release check evaluated (R104, R107). -/
def State.facFilled (s : State) : State :=
  let s := s.setFac .released
  let s : State := { s with
    fac := { s.fac with fillKPa := 0, holdKPa := 0, pulseTimer := none, fillTimer := none }
    arbiter := s.arbiter.giveBack .fac }
  s.facCheckEval.decideFill

end Sys2Proof.Machine
end

