-- ==== Sys2Proof/Machine/Flags.lean ====
section
/-! DEFINITION. The encodings that frames and replies carry, and the flag bytes (chapters 2 to 13). -/

namespace Sys2Proof.Machine

def OpState.code : OpState → Nat
  | .unloaded => 0
  | .setup => 1
  | .run => 2
  | .degraded => 3
  | .safeStop => 4
  | .latched => 5

def ResetKind.code : ResetKind → Nat
  | .powerOn => 0
  | .pin => 1
  | .management => 2

def TableState.code : TableState → Nat
  | .resetDefault => 0
  | .uncommitted => 1
  | .committed => 2

def SpeedSource.code : SpeedSource → Nat
  | .radar => 0
  | .frontFree => 1
  | .axleMin => 2
  | .rearOnly => 3
  | .none => 4

def FacState.code : FacState → Nat
  | .engaged => 0
  | .releaseWait => 1
  | .releaseFill => 2
  | .released => 3

def HitchState.code : HitchState → Nat
  | .startupLock => 0
  | .hold => 1
  | .control => 2
  | .raising => 3
  | .lowering => 4
  | .transport => 5

def TrailerSource.code : TrailerSource → Nat
  | .none => 0
  | .pedal => 1
  | .park => 2
  | .stretch => 3
  | .safeStop => 4
  | .latched => 5

def OrderKind.code : OrderKind → Nat
  | .swap1 => 0
  | .swap2 => 1
  | .engage => 2
  | .release => 3
  | .free => 4
  | .shuttle => 5

def OrderResult.code : OrderResult → Nat
  | .completed => 0
  | .free => 1
  | .forcedLock => 2
  | .aborted => 3
  | .refusedSupply => 4

/-- The phase encoding (R85); 0 is NONE, no order in flight. -/
def Phase.code : Phase → Nat
  | .waitSupply => 1
  | .prepare => 2
  | .fill => 3
  | .overlap => 4
  | .sync => 5
  | .lock => 6
  | .ramp => 7
  | .dump => 8

def ShuttleFlag.code : ShuttleFlag → Nat
  | .none => 0
  | .pending => 1
  | .dropped => 2

end Sys2Proof.Machine

namespace Sys2Proof

/-- The fault kinds' encoding (R177); 0 is NONE. -/
def FaultKind.code : FaultKind → Nat
  | .signalLost => 1
  | .linkSuspect => 2
  | .linkFailed => 3
  | .passageDrop => 4
  | .cmdSupervision => 5
  | .shiftSyncTimeout => 6
  | .facNoRelease => 7
  | .draftChannel => 8
  | .trailerLine => 9
  | .safeStopLatched => 10

end Sys2Proof

namespace Sys2Proof.Machine

/-- A gear in a frame: its index, 255 for NONE (R39). -/
def gearCode (g : Option Nat) : Nat := g.getD 255

/-- The headland flag of StatusDrive (R138). -/
def headlandFlag (m : Option HeadlandMemory) : Nat :=
  match m with
  | none => 0
  | some x => if x.lowering then 2 else 1

/-- StatusDrive byte 7: bits 0 and 1 headland flag, bit 2 overflow, bits 3 and 4 shuttle flag (section 13.4). -/
def statusFlags (headland : Nat) (overflow : Bool) (shuttle : ShuttleFlag) : Nat :=
  headland + (if overflow then 4 else 0) + shuttle.code * 8

/-- ShiftRecord byte 6: bit 0 flare seen, bit 1 tie-up seen (section 13.4). -/
def observationFlags (flare tieUp : Bool) : Nat := (if flare then 1 else 0) + (if tieUp then 2 else 0)

/-- The table states of a STATUS_QUERY reply: table n in bits 2(n - 1) and 2(n - 1) + 1 of a 24-bit value (section 13.2). -/
def tableStateBits (ts : Tables) : Nat :=
  (TableId.all.map fun id => (ts.get id).state.code * 2 ^ (2 * (id.toNat - 1))).sum

end Sys2Proof.Machine
end

