-- ==== Sys2Proof/Machine/Shift.lean ====
section
/-! DEFINITION. The Shift Engine's order in flight: how it is built and taken (R64, R65), the clutch
commands and the two clutch frames (R61, R75, R85), NEUT (R166), and the execution of one step of a phase
(R66 to R76, R79, R80). -/

namespace Sys2Proof.Machine

/-- The clutch index of a direction clutch: FWD 7, REV 8 (section 3.1). -/
def dirClutch : Dir → Nat
  | .f => 7
  | .r => 8

/-- The direction of a direction state, none in N. -/
def DirState.dir? : DirState → Option Dir
  | .n => none
  | .f => some .f
  | .r => some .r

def Dir.state : Dir → DirState
  | .f => .f
  | .r => .r

/-- The speed and range clutches of a gear; none for NONE. -/
def gearClutches (ws : List TWord) : Option Nat → List Nat
  | none => []
  | some g => [(gearEntry ws g).speedClutch, (gearEntry ws g).rangeClutch]

def drivesOf (cs : List Nat) : List Drive := cs.map fun c => ⟨c, 0⟩

/-! ### NEUT (R166) -/

def State.command (s : State) (c : Fin 10) : Nat := s.shift.commands[c]

/-- NEUT is set anew from the direction commands of the last step and whether an engagement is in flight. -/
def State.setNeut (s : State) : State :=
  { s with neut := s.command 7 == 0 && s.command 8 == 0 && !(s.shift.order.any Order.engaging) }

/-! ### Building and taking an order (R64, R65) -/

/-- An order before its first phase is set; `ratioTo` and the clutches it exchanges are taken at issue. -/
def newOrder (ws : List TWord) (kind : OrderKind) (fromGear toGear : Option Nat) (dir origin : Dir) : Order where
  kind := kind
  fromGear := fromGear
  toGear := toGear
  dir := dir
  origin := origin
  ratioTo := match toGear with
    | some g => (gearEntry ws g).ratio
    | none => 0
  moveOn := (gearClutches ws toGear).filter fun c => !(gearClutches ws fromGear).contains c
  moveOff := (gearClutches ws fromGear).filter fun c => !(gearClutches ws toGear).contains c
  oncoming := []
  offgoing := []
  driving := false
  sub := .dump
  phase := .dump
  count := 0
  inRef := 0
  outRef := 0
  flare := false
  tieUp := false
  throttleHeld := false
  freed := false
  forced := false
  merged := none
  dump := none
  ending := false
  partEnd := none
  duration := 0
  lastLocked := fromGear

/-- A swap or FREE enters WAIT_SUPPLY with its sets; with nothing oncoming it enters LOCK (R64, R74). -/
def Order.toMove (o : Order) : Order :=
  { o with sub := .free, count := 0, driving := false, oncoming := drivesOf o.moveOn, offgoing := drivesOf o.moveOff
           phase := if o.moveOn = [] then .lock else .waitSupply }

/-- An engagement enters WAIT_SUPPLY with its direction clutch oncoming (R72). -/
def Order.toEngage (o : Order) : Order :=
  { o with sub := .engage, count := 0, driving := false, oncoming := drivesOf [dirClutch o.dir], offgoing := []
           phase := .waitSupply }

/-- Where an order starts (R64). -/
def Order.begun (o : Order) : Order :=
  match o.kind with
  | .swap1 => o.toMove
  | .swap2 => o.toMove
  | .free => o.toMove
  | .engage => o.toEngage
  | .release => o
  | .shuttle => o

/-- Put an order in its present phase in flight: NEUT follows, and in WAIT_SUPPLY its slots are asked for (R65). -/
def State.enterOrder (o : Order) (s : State) : State :=
  let s := ({ s with shift := { s.shift with order := some o } } : State).setNeut
  if o.phase = .waitSupply then s.shiftRequest o.oncoming.length else s

/-- The Shift Engine takes an order at its issue (R64). -/
def State.takeOrder (kind : OrderKind) (fromGear toGear : Option Nat) (dir origin : Dir) (s : State) : State :=
  s.enterOrder (newOrder s.gearWords kind fromGear toGear dir origin).begun

/-! ### Clutch commands (R61, R75) -/

/-- The pedal limit of a direction clutch (R75). -/
def pedalLimit (pMax : Nat) (pedal : Int) : Nat :=
  if pedal ≤ 100 then pMax
  else if pedal < 900 then pMax * (900 - pedal).toNat / 800 / 10 * 10
  else 0

def State.limited (s : State) (d : Dir) (v : Nat) : Nat :=
  min v (pedalLimit (s.prof (dirClutch d)).pMax (s.shown clutchPedal))

/-- The pressure an order gives a clutch it drives. -/
def driveOf (ds : List Drive) (c : Nat) : Option Nat := (ds.find? fun d => d.clutch == c).map (·.kPa)

/-- The gear whose speed and range clutches are held: the current gear, for a SHUTTLE the last locked one (log 12). -/
def State.heldGear (s : State) : Option Nat :=
  match s.shift.order with
  | some o => if o.kind = .shuttle then o.lastLocked else s.gear.current
  | none => s.gear.current

/-- The command of a speed or range clutch: driven by the order, or held under R61. -/
def State.gearCommand (s : State) (c : Nat) : Nat :=
  let held := if (gearClutches s.gearWords s.heldGear).contains c then (s.prof c).pMax else 0
  match s.shift.order with
  | none => held
  | some o => if o.driving && !o.engaging then (driveOf (o.oncoming ++ o.offgoing) c).getD held else held

/-- The direction whose clutch an order dumps, if it does. -/
def Order.dumping (o : Order) : Option Dir :=
  match o.kind with
  | .swap1 => o.merged
  | .swap2 => o.merged
  | .engage => if o.ending then some o.dir else none
  | .release => some o.dir
  | .free => none
  | .shuttle => match o.sub with
    | .dump => some o.origin
    | .free => none
    | .engage => if o.ending then some o.dir else none

/-- The command of a direction clutch (R61, R72, R73, R75). -/
def State.dirCommand (s : State) (d : Dir) : Nat :=
  if s.mode.op = .unloaded ∨ s.mode.op = .setup then 0
  else
    let held := if s.gear.dirState = d.state then s.limited d (s.prof (dirClutch d)).pMax else 0
    match s.shift.order with
    | none => held
    | some o =>
      if o.dumping = some d then s.limited d (o.dump.getD 0)
      else if o.engaging ∧ o.dir = d ∧ o.driving then
        let v := (driveOf o.oncoming (dirClutch d)).getD 0
        if o.phase = .fill then v else s.limited d v
      else held

/-- The ten commands of a step. -/
def State.commandsNow (s : State) : Vector Nat 10 :=
  Vector.ofFn fun c =>
    if c.val < 7 then s.gearCommand c.val
    else if c.val = 7 then s.dirCommand .f
    else if c.val = 8 then s.dirCommand .r
    else s.facCommand

/-! ### Clutch frames (R85, section 13.3) -/

def State.kPaByte (s : State) (c : Fin 10) : Byte := byte1 (s.command c / 10 : Nat)

def clutchAData (s : State) : List Byte :=
  [s.kPaByte 0, s.kPaByte 1, s.kPaByte 2, s.kPaByte 3, s.kPaByte 4, s.kPaByte 5, s.kPaByte 6, s.shift.rolling]

/-- The phase shown: that of the order, 0 with none in flight (R85). -/
def phaseCode (o : Option Order) : Nat :=
  match o with
  | some o => o.phase.code
  | none => 0

/-- The target gear (R40). -/
def Gear.target (g : Gear) : Option Nat :=
  match g.dirState with
  | .n => match g.presel with
    | .f => g.preF
    | .r => g.preR
  | .f => g.ownTarget
  | .r => g.ownTarget

def clutchBData (phase : Nat) (s : State) : List Byte :=
  [s.kPaByte 7, s.kPaByte 8, s.kPaByte 9, byte1 phase, byte1 (gearCode s.gear.current),
    byte1 (gearCode s.gear.target), byte1 s.mode.op.code, s.shift.rolling]

/-! ### One step of a phase (R66 to R76) -/

/-- What ends with a step. -/
inductive StepEnd where
  | goesOn
  | phase (p : Phase)
  | part (r : OrderResult)
  deriving DecidableEq, Repr

/-- The sync test (R69). -/
def syncTest (outSpeed engSpeed : Int) (ratioTo window : Nat) : Bool :=
  decide ((outSpeed - (engSpeed * ratioTo).tdiv 4096).natAbs ≤ window)

def State.synced (s : State) (o : Order) : Bool :=
  syncTest (s.shown outSpeed) (s.shown engSpeed) o.ratioTo s.clutchHdr.syncWindow

/-- The command of a clutch in step `n` of its fill (R67). -/
def Profile.fillAt (p : Profile) (n : Nat) : Nat := if n ≤ p.pulseMs / 10 then p.pPulse else p.pHold

/-- The steps of a clutch's fill (R67). -/
def Profile.fillSteps (p : Profile) : Nat := p.pulseMs / 10 + p.tHold / 10

/-- A rising pressure: P_ramp0 on the first step, then R_on more on each, never above P_max (R68, R72). -/
def Profile.rise (p : Profile) (first : Bool) (kPa : Nat) : Nat :=
  if first then p.pRamp0 else min p.pMax (kPa + p.rOn)

def onDrives (s : State) (f : Profile → Drive → Nat) (ds : List Drive) : List Drive :=
  ds.map fun d => { d with kPa := f (s.prof d.clutch) d }

/-- A swap or FREE drops its offgoing clutches at once (R66, R79). -/
def Order.dropsAtOnce (o : Order) : Bool := o.freed || !o.kind.isSwap

/-- The result of an order that ends at LOCK (R71). -/
def Order.lockResult (o : Order) : OrderResult :=
  if o.kind.isSwap then
    if o.freed then .free else if o.forced then .forcedLock else .completed
  else .completed

/-- One step of the phase the order is in. The order given back still shows the executed phase. -/
def State.runPhase (s : State) (o : Order) : Order × StepEnd :=
  let o := { o with count := o.count + 1 }
  match o.phase with
  | .waitSupply =>
    (o, if s.clutchHdr.fillWaitMs / 10 ≤ o.count then .part .refusedSupply else .goesOn)
  | .prepare =>
    ({ o with
        offgoing := onDrives s (fun p _ => if o.dropsAtOnce then 0 else p.pOffhold) o.offgoing
        oncoming := onDrives s (fun _ _ => 0) o.oncoming
        inRef := s.shown engSpeed, outRef := s.shown outSpeed
        throttleHeld := decide (100 ≤ s.shown throttle) }, .phase .fill)
  | .fill =>
    let o' := { o with
        oncoming := onDrives s (fun p _ => p.fillAt o.count) o.oncoming
        offgoing := onDrives s (fun _ d => if o.dropsAtOnce then 0 else d.kPa) o.offgoing }
    (o', if o.oncoming.all (fun d => decide ((s.prof d.clutch).fillSteps ≤ o.count)) then
        .phase (if o.engaging then .ramp else if o.dropsAtOnce then .lock else .overlap)
      else .goesOn)
  | .overlap =>
    let o' := { o with
        oncoming := onDrives s (fun p d => p.rise (o.count == 1) d.kPa) o.oncoming
        offgoing := onDrives s (fun p d => d.kPa - p.rOff) o.offgoing
        flare := o.flare || decide (o.inRef + s.clutchHdr.flare < s.shown engSpeed)
        tieUp := o.tieUp || decide (s.shown outSpeed < o.outRef - s.clutchHdr.tieUp) }
    (o', if o'.offgoing.all (fun d => d.kPa == 0) then .phase (if s.synced o then .lock else .sync) else .goesOn)
  | .sync =>
    let o' := { o with oncoming := onDrives s (fun p d => p.rise false d.kPa) o.oncoming }
    if s.synced o then (o', .phase .lock)
    else if s.clutchHdr.syncMaxMs / 10 ≤ o.count then ({ o' with forced := true }, .phase .lock)
    else (o', .goesOn)
  | .lock =>
    ({ o with oncoming := onDrives s (fun p _ => p.pMax) o.oncoming
              offgoing := onDrives s (fun _ _ => 0) o.offgoing }, .part o.lockResult)
  | .ramp =>
    let o' := { o with oncoming := onDrives s (fun p d => p.rise (o.count == 1) d.kPa) o.oncoming }
    (o', if o'.oncoming.all (fun d => d.kPa == (s.prof d.clutch).pMax) then .phase .lock else .goesOn)
  | .dump =>
    -- a swap whose part has ended holds its oncoming clutches while its merged RELEASE dumps (R80)
    ({ o with oncoming := if o.kind.isSwap then onDrives s (fun p _ => p.pMax) o.oncoming else o.oncoming }, .goesOn)

/-- The dump value of this step: from the command of the step before, less R_off on each step (R73). -/
def State.dumpStep (s : State) (o : Order) : Order :=
  match o.dumping with
  | none => o
  | some d =>
    let c := dirClutch d
    let before := o.dump.getD (if d = .f then s.command 7 else s.command 8)
    { o with dump := some (before - (s.prof c).rOff) }

/-- The pedal is read at the start of a step: a swap in WAIT_SUPPLY to SYNC is made free at 500 ‰ (R79). -/
def State.readPedal (s : State) (o : Order) : Order :=
  if o.kind.isSwap ∧ o.phase ≠ .lock ∧ o.phase ≠ .dump ∧ 500 ≤ s.shown clutchPedal then { o with freed := true } else o

/-- A free swap in OVERLAP or SYNC makes this step its LOCK step (R79). -/
def Order.freeNow (o : Order) : Order :=
  if o.kind.isSwap ∧ o.freed ∧ (o.phase = .overlap ∨ o.phase = .sync) then { o with phase := .lock, count := 0 } else o

/-- Throttle held becomes 0 below 100 ‰ on a step after PREPARE (R66). -/
def State.keepThrottle (s : State) (o : Order) : Order :=
  if o.phase = .prepare then o
  else { o with throttleHeld := o.throttleHeld && decide (100 ≤ s.shown throttle) }

/-- The order at the start of a step: the pedal read, the step counted (R59, R71). -/
def State.stepBegin (s : State) (o : Order) : Order :=
  s.keepThrottle { (s.readPedal o).freeNow with duration := min 65535 (o.duration + 1) }

/-- One step of the order: its phase and a dump that runs alone or alongside. -/
def State.stepOrder (s : State) (o : Order) : Order × StepEnd :=
  let o := s.stepBegin o
  let (o', e) := s.runPhase o
  (s.dumpStep o', e)

/-- The swap part has ended, at this step or before (R80). -/
def Order.partResult (o : Order) (e : StepEnd) : Option OrderResult :=
  match e with
  | .part r => some r
  | .goesOn => o.partEnd
  | .phase _ => o.partEnd

/-- The result with which an order ends on a step, if it does (R71, R73, R80, R81). -/
def Order.endsWith (o : Order) (e : StepEnd) : Option OrderResult :=
  if o.dumping.isSome ∧ o.dump ≠ some 0 then none
  else if o.kind.isSwap then o.partResult e
  else if o.ending then some .aborted
  else match o.kind with
    | .release => some .completed
    | .shuttle => match e with
      | .part .refusedSupply => some .refusedSupply
      | .part r => if o.sub = .engage then some r else none
      | .goesOn => none
      | .phase _ => none
    | .swap1 => o.partResult e
    | .swap2 => o.partResult e
    | .engage => o.partResult e
    | .free => o.partResult e

end Sys2Proof.Machine
end

