-- ==== Sys2Proof/Machine/Gear.lean ====
section
/-! DEFINITION. The Gear Selector (chapter 3): its target and preselections, the issuing of orders, order
ends, and the acts on an order in flight (R48, R49, R78, R80 to R83). -/

namespace Sys2Proof.Machine

/-! ### Target and preselections (R39, R40) -/

def Gear.pre (g : Gear) : Dir → Option Nat
  | .f => g.preF
  | .r => g.preR

def Gear.withPre (g : Gear) (d : Dir) (t : Option Nat) : Gear :=
  match d with
  | .f => { g with preF := t }
  | .r => { g with preR := t }

/-- The direction whose ladder the target is on (R40). -/
def Gear.dir (g : Gear) : Dir :=
  match g.dirState with
  | .n => g.presel
  | .f => .f
  | .r => .r

/-- In N the target is the preselection of the preselected direction, else a value of its own (R40). -/
def Gear.withTarget (g : Gear) (t : Option Nat) : Gear :=
  match g.dirState with
  | .n => g.withPre g.presel t
  | .f => { g with ownTarget := t }
  | .r => { g with ownTarget := t }

/-- A new direction state; when F is left the deferral timer stops (R56). -/
def Gear.setDir (g : Gear) (d : DirState) : Gear :=
  { g with dirState := d, deferral := if g.dirState = .f ∧ d ≠ .f then .stopped else g.deferral }

/-- The shuttle pending record removed and the flag NONE (R52). -/
def Gear.dropShuttle (g : Gear) : Gear := { g with shuttle := none, flag := .none }

/-- A release from direction `d`: N, `d` preselected, pre_d the reference gear (R48). -/
def Gear.released (g : Gear) (d : Dir) (ref : Option Nat) : Gear :=
  { (g.setDir .n).withPre d ref with presel := d }

def State.withGear (s : State) (f : Gear → Gear) : State := { s with gear := f s.gear }

def State.withOrder (s : State) (o : Order) : State := { s with shift := { s.shift with order := some o } }

/-- The reference gear (R48): the to gear of a swap in flight, else the current gear. -/
def State.referenceGear (s : State) : Option Nat :=
  match s.shift.order with
  | some o => if o.kind.isSwap then o.toGear else s.gear.current
  | none => s.gear.current

def State.ladderOf (s : State) (d : Dir) : List Nat := ladder s.gearWords d

/-- The ladder of the target. -/
def State.targetLadder (s : State) : List Nat := s.ladderOf s.gear.dir

/-- While coupled braking is 1 a move stops at the reference gear; one that is not on the ladder sets no limit
(R57, log 21). -/
def State.limitPlace (s : State) (l : List Nat) (p : Nat) : Nat :=
  if s.motion.record.coupled then
    match s.referenceGear.bind (placeOn l) with
    | some r => min p r
    | none => p
  else p

/-- The target, or the reference gear where that lies below it on the ladder (R57, log 21). -/
def State.heldTarget (s : State) : Option Nat :=
  let l := s.targetLadder
  match s.gear.target.bind (placeOn l), s.referenceGear.bind (placeOn l) with
  | some p, some r => if r < p then l[r]? else s.gear.target
  | _, _ => s.gear.target

/-- While coupled braking is 1 the target is kept at or below the reference gear, with no order in flight (R57). -/
def State.keepTarget (s : State) : State :=
  if s.motion.record.coupled then s.withGear (·.withTarget s.heldTarget) else s

/-! ### Issuing orders (R45 to R47, R51, R52) -/

/-- The place reached from `a` toward `b` in at most `k` positions (R46). -/
def stepToward (a b k : Nat) : Nat := if a ≤ b then a + min k (b - a) else a - min k (a - b)

/-- SWAP1 when the clutch sets differ in one of speed and range, SWAP2 when in both (R46). -/
def swapKind (a b : GearEntry) : OrderKind := if a.speed ≠ b.speed ∧ a.range ≠ b.range then .swap2 else .swap1

/-- The gear an order moves to from gear `a` toward `b`: at most K positions on one ladder (R46, R47); straight
there when one of them is not on that ladder. -/
def State.moveTo (s : State) (l : List Nat) (a b : Nat) : Nat :=
  match placeOn l a, placeOn l b with
  | some i, some j => l.getD (stepToward i j (gearHeader s.gearWords).k) b
  | _, _ => b

/-- Case 4: a swap from the current gear toward the target (R46). -/
def State.issueSwap (a b : Nat) (s : State) : State :=
  let dest := s.moveTo s.targetLadder a b
  let kind := swapKind (gearEntry s.gearWords a) (gearEntry s.gearWords dest)
  s.takeOrder kind (some a) (some dest) s.gear.dir s.gear.dir

/-- Case 5: a FREE from the current gear toward the target (R47). -/
def State.issueFree (b : Nat) (s : State) : State :=
  let dest := match s.gear.current with
    | some a => s.moveTo s.targetLadder a b
    | none => b
  s.takeOrder .free s.gear.current (some dest) s.gear.dir s.gear.dir

/-- Case 1: the RELEASE of the engaged direction with no order in flight (R48). -/
def State.issueRelease (d : Dir) (s : State) : State :=
  let s := s.withGear fun g => g.released d g.current
  s.takeOrder .release s.gear.current s.gear.current d d

/-- Case 2: a request X in N (R47). The target, which becomes pre_X, is kept under R57. An ENGAGE carries the current
gear, which is pre_X, as its from and to gear (log 11). -/
def State.requestInN (x : Dir) (s : State) : State :=
  if s.gear.pre x = none then s
  else
    let s := (s.withGear fun g => { g with presel := x }).keepTarget
    s.takeOrder (if s.gear.current = s.gear.pre x then .engage else .free) s.gear.current (s.gear.pre x) x x

/-- The SHUTTLE order from direction `y` to `x` (R51). -/
def State.issueShuttle (x y : Dir) (s : State) : State :=
  let s := s.withGear fun g => { ((g.setDir .n).withPre y g.current).dropShuttle with presel := x }
  s.takeOrder .shuttle s.gear.current (s.gear.pre x) x y

/-- The record of a shuttle request above the limit is created or kept (R52). -/
def State.keepShuttle (x : Dir) (s : State) : State :=
  if s.gear.shuttle.isSome then s
  else s.withGear fun g =>
    { g with shuttle := some ⟨x, s.now, s.after (gearHeader s.gearWords).pendingMs⟩, flag := .pending }

/-! ### The schedule test (R54 to R56) -/

inductive ScheduleResult where
  | up
  | down
  | none
  deriving DecidableEq, Repr

/-- What the schedule calls for at place `p` of a ladder of `n` gears (R55). -/
def scheduleCall (h : ScheduleHeader) (up down p n : Nat) (eng throttle : Int) (braking : Bool) : ScheduleResult :=
  if p + 1 < n ∧ (up : Int) ≤ eng ∧ (h.minThrottle : Int) ≤ throttle ∧ braking = false then .up
  else if 0 < p ∧ eng ≤ (down : Int) + (if braking then h.brakeOffset else 0) then .down
  else .none

/-- The schedule test of case 6, with the order that follows at once (R54 to R56). -/
def State.scheduleTest (s : State) : State :=
  match s.gear.current with
  | none => s
  | some c =>
    let ws := s.inUse .shiftSchedule
    let h := scheduleHeader ws
    let l := s.ladderOf .f
    match placeOn l c with
    | none => s
    | some p =>
      let stop := fun (g : Gear) => { g with deferral := .stopped }
      let move := fun (dest : Nat) (s : State) =>
        ((s.withGear stop).withGear (·.withTarget (some dest))).issueSwap c dest
      match scheduleCall h (scheduleUp ws c) (scheduleDown ws c) p l.length (s.shown engSpeed) (s.shown throttle)
          s.motion.record.coupled with
      | .up => move (l.getD (p + 1) c) s
      | .none => s.withGear stop
      | .down =>
        if s.hitch.correcting ∧ s.gear.deferral ≠ .expired ∧ h.deferMs ≠ 0 then
          if s.gear.deferral = .stopped then
            s.withGear fun g => { g with deferral := .running (s.after h.deferMs) }
          else s
        else move (l.getD (p - 1) c) s

/-! ### Decisions with no order in flight (R45) -/

/-- Cases 4 to 6 with the direction engaged. `byMotion`: a Motion Record update brings the decision (R54). -/
def State.decideEngaged (byMotion : Bool) (s : State) : State :=
  match s.gear.target, s.gear.current with
  | some t, some c =>
    if t ≠ c then s.issueSwap c t
    else if byMotion ∧ s.gear.dirState = .f ∧ s.intake.record.shiftMode = .auto ∧ running s.gear.holdOff = false
      then s.scheduleTest else s
  | _, _ => s

/-- Case 5. -/
def State.decideFree (s : State) : State :=
  match s.gear.target with
  | none => s
  | some t => if s.gear.current = some t then s else s.issueFree t

/-- Cases 3 to 6: request `x`, direction state `y`. -/
def State.decideRequest (byMotion : Bool) (x y : Dir) (s : State) : State :=
  if x = y ∨ s.gear.flag = .dropped then s.decideEngaged byMotion
  else match s.gear.pre x with
    | none => s
    | some _ =>
      if s.motion.record.vg ≤ ((gearHeader s.gearWords).speedLimit : Int) then s.issueShuttle x y
      else (s.keepShuttle x).decideEngaged byMotion

/-- A decision with no order in flight: the first case that applies; in SETUP case 5 alone (R45). -/
def State.decideIdle (byMotion : Bool) (s : State) : State :=
  match s.mode.op with
  | .setup => if s.gear.dirState = .n then s.decideFree else s
  | .run =>
    match s.intake.record.direction.dir?, s.gear.dirState.dir? with
    | none, some y => s.issueRelease y
    | some x, none => s.requestInN x
    | some x, some y => s.decideRequest byMotion x y
    | none, none => s.decideFree
  | .unloaded => s
  | .degraded => s
  | .safeStop => s
  | .latched => s

/-! ### Order ends (R50, R71, R77, R84) -/

def OrderResult.locking : OrderResult → Bool
  | .completed => true
  | .free => true
  | .forcedLock => true
  | .aborted => false
  | .refusedSupply => false

/-- The selector after an end report (R50). -/
def Gear.afterReport (g : Gear) (o : Order) (r : OrderResult) : Gear :=
  match o.kind with
  | .swap1 | .swap2 =>
    if r.locking then { g with current := o.toGear }
    else
      let g := { g with current := o.fromGear }
      if o.merged = none then g.withTarget g.current else g
  | .free => { g with current := if r.locking then o.toGear else o.fromGear }
  | .engage => if r.locking then { g.setDir o.dir.state with ownTarget := g.target } else g
  | .release => g
  | .shuttle =>
    if r.locking then { g.setDir o.dir.state with ownTarget := g.target, current := o.toGear }
    else { g with current := o.lastLocked }

/-- The selector after an order end; a change of the Gear Table in use during the order makes the current gear
NONE instead (R41). -/
def Gear.afterEnd (g : Gear) (o : Order) (r : OrderResult) : Gear :=
  if g.clearAtEnd then { g with current := none, clearAtEnd := false } else g.afterReport o r

/-- The Last Shift Record (R84, section 13.4). `change` is the offset change in ms. -/
def shiftRecordData (o : Order) (r : OrderResult) (change : Int) : List Byte :=
  [byte1 (gearCode o.fromGear), byte1 (gearCode o.toGear), byte1 o.kind.code, byte1 r.code]
    ++ bytes2 o.duration ++ [byte1 (observationFlags o.flare o.tieUp), byte1 change]

/-- The order ends: end report, Last Shift Record, hold-off restarted, NEUT, and a decision (R50, R71). The current gear
is the reference gear from here on, and the target is kept at or below it under coupled braking (R57). -/
def State.orderEnd (o : Order) (r : OrderResult) (change : Int) (s : State) : State :=
  let s : State := { s with shift := { s.shift with order := none } }
  let s := (s.withGear fun g => g.afterEnd o r).keepTarget
  let s := s.writeMail .shiftRecord (shiftRecordData o r change)
  let s := s.withGear fun g =>
    { g with holdOff := s.after (scheduleHeader (s.inUse .shiftSchedule)).holdOffMs }
  s.setNeut.decideIdle false

/-- A swap is withdrawn or ended ABORTED, if its phase allows (R78, R82). -/
def State.abortSwap (o : Order) (s : State) : State :=
  match o.phase with
  | .waitSupply => s.shiftWithdraw.orderEnd o .aborted 0
  | .prepare | .fill => s.closeWindow.shiftGiveBack.orderEnd o .aborted 0
  | .overlap | .sync | .lock | .ramp | .dump => s

/-- The target changes; handed to a swap in flight, one equal to its from gear is a change of mind (R45, R78). -/
def State.handTarget (t : Option Nat) (s : State) : State :=
  if s.gear.target = t then s
  else
    let s := s.withGear (·.withTarget t)
    match s.shift.order with
    | none => s
    | some o => if o.kind.isSwap ∧ o.merged = none ∧ t = o.fromGear then s.abortSwap o else s

/-! ### A RELEASE or a new request on an order in flight (R48, R49, R80, R81) -/

/-- An engagement in flight is ended (R81). -/
def State.endEngagement (o : Order) (s : State) : State :=
  if o.ending then s
  else
    let ended := s.withOrder { o with phase := .dump, count := 0, ending := true, dump := none }
    match o.phase with
    | .waitSupply => s.shiftWithdraw.orderEnd o .aborted 0
    | .fill => ended.shiftGiveBack
    | .prepare | .overlap | .sync | .lock | .ramp | .dump => ended

/-- A RELEASE handed to the order in flight (R48, R80, R81). -/
def State.releaseOrder (o : Order) (s : State) : State :=
  match o.kind with
  | .swap1 | .swap2 =>
    match o.merged, s.gear.dirState.dir? with
    | none, some d =>
      (s.withOrder { o with freed := true, merged := some d }).withGear fun g => g.released d o.toGear
    | _, _ => s
  | .engage => s.endEngagement o
  | .release => s
  | .free => s
  | .shuttle =>
    match o.sub with
    | .dump => (s.withOrder { o with kind := .release, dir := o.origin }).withGear fun g => { g with presel := o.origin }
    | .free => s.withOrder { o with kind := .free }
    | .engage => s.endEngagement o

/-- A RELEASE, whatever is in flight (R43, R48). -/
def State.release (s : State) : State :=
  match s.shift.order with
  | some o => s.releaseOrder o
  | none => match s.gear.dirState.dir? with
    | some d => s.issueRelease d
    | none => s

/-- What a decision does to the order in flight (R45, R48, R49). -/
def State.decideInFlight (o : Order) (s : State) : State :=
  match s.intake.record.direction.dir? with
  | none => s.releaseOrder o
  | some x =>
    if o.kind = .shuttle ∧ o.sub = .dump ∧ x = o.origin then s.releaseOrder o else s

/-- A decision of the Gear Selector (R45). -/
def State.gearDecide (byMotion : Bool) (s : State) : State :=
  match s.shift.order with
  | none => s.decideIdle byMotion
  | some o => if s.mode.op = .run then s.decideInFlight o else s

/-! ### Requests handed on by the Frame Intake (R44, R52) -/

/-- The target moved `n` positions on its ladder, clamped, and limited under braking when upward (R44, R57). -/
def State.movedTarget (s : State) (n : Int) : Option Nat :=
  let l := s.targetLadder
  match s.gear.target.bind (placeOn l) with
  | none => s.gear.target
  | some p =>
    let q := (clamp 0 ((l.length : Int) - 1) ((p : Int) + n)).toNat
    let q := if 0 < n then s.limitPlace l q else q
    some (l.getD q 0)

/-- Presses, in RUN (R44). -/
def State.pressTarget (ups downs : Nat) (s : State) : State :=
  if s.mode.op = .run ∧ ups ≠ downs then s.handTarget (s.movedTarget ((ups : Int) - downs)) else s

/-- A changed direction request removes the record and the flag, in RUN (R52). -/
def State.newDirection (s : State) : State :=
  if s.mode.op = .run then s.withGear Gear.dropShuttle else s

/-- A shift mode that leaves AUTO stops the deferral timer (R56). -/
def State.newShiftMode (s : State) : State :=
  if s.intake.record.shiftMode = .manual then s.withGear fun g => { g with deferral := .stopped } else s

/-- The Gear Selector's part: levels, presses, then one decision; as many ups as downs have no effect (R44, R45, log 8). -/
def State.gearNews (n : OperatorNews) (s : State) : State :=
  let s := s.onlyIf n.direction State.newDirection
  let s := s.onlyIf n.shiftMode State.newShiftMode
  let s := s.pressTarget n.ups n.downs
  s.onlyIf (n.direction || n.shiftMode || n.ups != n.downs) (State.gearDecide false)

/-! ### Headland and braking (R57, R58) -/

/-- A headland target; an upward move stops at the reference gear while coupled braking is 1 (R57, R58). -/
def State.headlandTarget (g : Nat) (s : State) : State :=
  let l := s.targetLadder
  let dest := match s.gear.target.bind (placeOn l), placeOn l g with
    | some p, some q => if p < q then l.getD (s.limitPlace l q) g else g
    | _, _ => g
  s.handTarget (some dest)

/-- The OUT change, in RUN: K_hl positions below the current gear, clamped to the bottom (R42, R58). -/
def State.headlandOut (s : State) : State :=
  let l := s.targetLadder
  match s.gear.dirState.dir?, s.gear.current.bind (placeOn l) with
  | some _, some p =>
    if s.mode.op = .run then (s.headlandTarget (l.getD (p - (gearHeader s.gearWords).kHl) 0)).gearDecide false else s
  | _, _ => s

/-- The IN change, in RUN: the saved gear, when one is present and the direction state equals the saved direction (R42,
R58). -/
def State.headlandIn (saved : Option Nat) (dir : DirState) (s : State) : State :=
  if s.mode.op ≠ .run then s
  else match s.gear.dirState.dir?, saved with
    | none, _ => s
    | some _, none => s.gearDecide false
    | some _, some g => if s.gear.dirState = dir then (s.headlandTarget g).gearDecide false else s.gearDecide false

/-- The start of coupled braking at the selector and the Shift Engine: the target falls to the reference gear,
and an early upward swap is aborted (R57, R82). -/
def State.gearBrakeStart (s : State) : State :=
  let s := s.handTarget s.heldTarget
  match s.shift.order with
  | some o => if o.upSwap ∧ o.merged = none then s.abortSwap o else s
  | none => s

/-! ### Changes of the Gear Table and of the operating state (R41 to R43, R83) -/

/-- The content of the Gear Table in use has changed (R41). -/
def State.gearTableChanged (s : State) : State :=
  let s := s.withGear fun g =>
    { g with preF := startGear s.gearWords .f, preR := startGear s.gearWords .r, current := none
             clearAtEnd := s.shift.order.isSome }
  s.gearDecide false

/-- Entry into DEGRADED; R42 names the target also while coupled braking is 1 (log 21). -/
def State.gearDegraded (s : State) : State :=
  let s := s.withGear fun g => { g.dropShuttle with deferral := .stopped }
  match s.shift.order with
  | some o =>
    if o.kind.isSwap ∨ o.kind = .free then s.withGear (·.withTarget o.toGear) else s
  | none => match s.gear.current with
    | some c => s.withGear (·.withTarget (some c))
    | none => s

/-- Entry into SAFE_STOP or LATCHED from RUN or DEGRADED (R43). -/
def State.gearSafeStop (s : State) : State :=
  (s.withGear fun g => { g.dropShuttle with deferral := .stopped }).release

/-- Entry into SETUP: the Shift Engine's act (R83), the selector's leaving of RUN (R52, R56), a decision (R45). -/
def State.gearSetup (s : State) : State :=
  let s := s.withGear fun g => { g.dropShuttle with deferral := .stopped }
  let ended := fun (o : Order) (r : OrderResult) (s : State) =>
    match o.phase with
    | .waitSupply => s.shiftWithdraw.orderEnd o r 0
    | .prepare | .fill => s.shiftGiveBack.orderEnd o r 0
    | .overlap | .sync | .lock | .ramp | .dump => s.orderEnd o r 0
  match s.shift.order with
  | none => s.gearDecide false
  | some o => match o.kind with
    | .engage => ended o .aborted s
    | .shuttle => ended o .aborted s
    | .release => ended o .completed s
    | .swap1 | .swap2 => if o.merged.isSome then s.withOrder { o with dump := some 0 } else s
    | .free => s

/-- Entry into RUN: the direction request is taken as if it had just changed (R42). -/
def State.gearRun (s : State) : State := s.newDirection.gearDecide false

end Sys2Proof.Machine
end

