-- ==== Sys2Proof/Machine/ClutchStep.lean ====
section
/-! DEFINITION. The clutch step as a whole (R59): execution, commands, count, frames, and what follows the
end of a phase, of a sub-order or of the order. -/

namespace Sys2Proof.Machine

/-! ### Adaptation (R77) -/

/-- The change asked of the offsets, ms. -/
def adaptDelta (flare tieUp : Bool) : Int :=
  if flare && !tieUp then 10 else if tieUp && !flare then -10 else 0

/-- The offset of a clutch after a change, capped at +50 and floored at −50 ms. -/
def adaptedOffset (a delta : Int) : Int := clamp (-50) 50 (a + delta)

/-- The words with the offset of each clutch of a list adapted. -/
def adaptWords (delta : Int) (cs : List Nat) (ws : List TWord) : List TWord :=
  cs.foldl (fun ws c => withAdapt ws c (adaptedOffset (profile ws c).adapt delta)) ws

/-- An order that adapts: a swap COMPLETED, not free, with the throttle held. -/
def Order.adapts (o : Order) (r : OrderResult) : Bool :=
  o.kind.isSwap && r == .completed && !o.freed && o.throttleHeld

/-- Adaptation of the table in use, which a running swap has COMMITTED (R77, log 27). -/
def State.adapt (o : Order) (r : OrderResult) (s : State) : State :=
  if o.adapts r ∧ s.tables.clutch.state = .committed then
    let ws := adaptWords (adaptDelta o.flare o.tieUp) (o.oncoming.map (·.clutch)) s.tables.clutch.loaded
    s.setTable .clutch { s.tables.clutch with loaded := ws }
  else s

/-- The offset change of the first clutch of the oncoming set, as recorded (R84). -/
def offsetChange (before after : State) (o : Order) : Int :=
  match o.oncoming with
  | [] => 0
  | d :: _ => (after.prof d.clutch).adapt - (before.prof d.clutch).adapt

/-- A swap that ends COMPLETED marks SHIFT_SYNC_TIMEOUT of its oncoming clutches gone (R70). -/
def State.syncGone (o : Order) (r : OrderResult) (s : State) : State :=
  if o.kind.isSwap ∧ r = .completed then
    o.oncoming.foldl (fun s d => s.gone .shiftSyncTimeout d.clutch) s
  else s

/-- The end of an order at a clutch step. -/
def State.endAtStep (o : Order) (r : OrderResult) (s : State) : State :=
  let s' := s.adapt o r
  (s'.syncGone o r).orderEnd o r (offsetChange s s' o)

/-! ### What the execution does at other blocks -/

/-- SYNC ended by T_sync_max raises a fault for each oncoming clutch (R70); in a SWAP2 the speed clutch's first, then the
range clutch's, an order that R70 leaves open (log 31). -/
def State.raiseSync (o : Order) (s : State) : State :=
  o.oncoming.foldl (fun s d => s.raise .shiftSyncTimeout d.clutch) s

/-- Faults, slots and the stretch window at the end of a phase (R65, R67, R70, R147). -/
def State.phaseEnded (o : Order) (e : StepEnd) (s : State) : State :=
  match o.phase, e with
  | .waitSupply, .part _ => s.shiftWithdraw
  | .fill, .phase _ => s.shiftGiveBack
  | .sync, .phase _ => if o.forced then s.raiseSync o else s
  | .lock, .part _ => s.closeWindow
  | _, _ => s

/-- What comes next for an order that has not ended: the next phase, the next sub-order of a SHUTTLE, or the
rest of a merged dump (R60, R76, R80). -/
def State.orderGoesOn (o : Order) (e : StepEnd) (s : State) : State :=
  if o.kind = .shuttle ∧ o.sub = .dump then
    if o.dump = some 0 then
      let o := { o with dump := none }
      s.enterOrder (if o.moveOn = [] then o.toEngage else o.toMove)
    else s
  else match e with
    | .goesOn => s
    | .phase p => s.withOrder { o with phase := p, count := 0 }
    | .part r =>
      if o.kind = .shuttle then s.enterOrder { o.toEngage with lastLocked := o.toGear }
      else s.withOrder { o with phase := .dump, count := 0, partEnd := some r, driving := o.driving && r.locking }

/-! ### The step -/

/-- The commands and the count of the step (R59, items 3 and 4). -/
def State.stepCommands (s : State) : State :=
  { s with shift := { s.shift with commands := s.commandsNow, rolling := s.shift.rolling + 1 } }

/-- Clutch Frame A and Clutch Frame B (R59 item 5, R85), and NEUT (R166). -/
def State.writeClutchFrames (phase : Nat) (s : State) : State :=
  ((s.writeMail .clutchA (clutchAData s)).writeMail .clutchB (clutchBData phase s)).setNeut

/-- The order in flight takes its step: commands are those of the executed phase (R59, R60, log 10). -/
def State.runStep (o : Order) (s : State) : State :=
  let (o', e) := s.stepOrder o
  let s := ((s.withOrder o').phaseEnded o' e).stepCommands
  let s := match o'.endsWith e with
    | some r => s.endAtStep o' r
    | none => s.orderGoesOn o' e
  s.writeClutchFrames o'.phase.code

/-- One clutch step (R59). -/
def State.clutchStep (s : State) : State :=
  let s := s.expire s.shift.timer
  let s : State := { s with shift := { s.shift with timer := s.nextPeriod s.shift.timer Config.clutchStepMs } }
  match s.shift.order with
  | none => s.stepCommands.writeClutchFrames 0
  | some o => s.runStep o

/-- The next step reaches T_fill_wait in WAIT_SUPPLY (R65). -/
def State.fillWaitDue (s : State) : Bool :=
  match s.shift.order with
  | none => false
  | some o => o.phase == .waitSupply && decide (s.clutchHdr.fillWaitMs / 10 ≤ o.count + 1)

/-- The next step ends SYNC by T_sync_max (R70). -/
def State.syncDue (s : State) : Bool :=
  match s.shift.order with
  | none => false
  | some o => o.phase == .sync && (s.stepOrder o).1.forced

end Sys2Proof.Machine
end

