-- ==== Sys2Proof/Machine/Hitch.lean ====
section
/-! DEFINITION. The Hitch Controller and the Headland Sequencer (chapter 8). -/

namespace Sys2Proof.Machine

/-! ### The control law (R131 to R136) -/

/-- What the law reads (R121). -/
structure LawInputs where
  s : Int
  pos : Int
  dTotal : Int
  quality : DraftQuality
  mix : Nat
  drop : Nat
  slipLimit : Nat
  slipValid : Bool
  slipF : Int
  deriving DecidableEq, Repr

/-- Stage 2: the position error (R131). -/
def LawInputs.ePos (x : LawInputs) : Int := x.pos - x.s

/-- Stages 3 to 5: the normalised draft error (R132). -/
def LawInputs.eDraft (x : LawInputs) (t : HitchTable) : Int :=
  let dSet := ((1000 - x.s) * t.dSpan).tdiv 1000
  clamp (-1000) 1000 (((dSet - x.dTotal) * 1000).tdiv t.dSpan)

/-- Stage 6: the mixed error (R133). -/
def LawInputs.error (x : LawInputs) (t : HitchTable) (lowering : Bool) : Int :=
  let m : Int := if lowering = true ∨ x.quality = .none then 0 else x.mix
  ((100 - m) * x.ePos + m * x.eDraft t).tdiv 100

/-- Stages 7 to 9: dead band, gain and clamp (R134). -/
def valveOf (t : HitchTable) (drop : Nat) (e : Int) : Int :=
  let u := if e.natAbs ≤ t.deadBand then 0 else (e * t.kH).tdiv 16
  if 0 < u then min u (100 + drop * 9) else max u (-1000)

/-- Stage 10: the slip limit (R135). -/
def slipLimited (t : HitchTable) (x : LawInputs) (u : Int) : Int :=
  let lim : Int := x.slipLimit * 10
  if 0 < x.slipLimit ∧ x.slipValid = true ∧ lim < x.slipF
  then min u (max (-1000) (-((x.slipF - lim) * t.kS).tdiv 16)) else u

/-- Stage 11: the upper limit (R136). -/
def upperLimited (t : HitchTable) (pos u : Int) : Int := if (t.upper : Int) ≤ pos ∧ u < 0 then 0 else u

/-- The law, or its lowering form (R126, R131 to R136). -/
def lawOf (t : HitchTable) (x : LawInputs) (lowering : Bool) : Int :=
  let u := valveOf t x.drop (x.error t lowering)
  upperLimited t x.pos (if lowering then u else slipLimited t x u)

/-- The dial that S is formed from (R131). -/
def State.setDial (s : State) : Nat := s.hitch.restore.getD s.intake.record.dial

def State.lawInputs (s : State) : LawInputs where
  s := s.setDial * 4
  pos := s.shown hitchPos
  dTotal := s.draft.record.dTotal
  quality := s.draft.record.quality
  mix := s.intake.record.mix
  drop := s.intake.record.drop
  slipLimit := s.intake.record.slipLimit
  slipValid := s.motion.record.slipValid
  slipF := s.motion.record.slipF

/-- The valve command of a hitch state (R120). -/
def State.hitchCommand (s : State) : Int :=
  match s.hitch.state with
  | .control => lawOf s.hitchT s.lawInputs false
  | .lowering => lawOf s.hitchT s.lawInputs true
  | .raising => -1000
  | .startupLock => 0
  | .hold => 0
  | .transport => 0

/-! ### Transitions (R122 to R128) -/

/-- A hitch state that keeps a restore dial (R126). -/
def HitchState.keepsRestore : HitchState → Bool
  | .control => true
  | .lowering => true
  | .startupLock => false
  | .hold => false
  | .raising => false
  | .transport => false

/-- A new hitch state: outside CONTROL no correcting raise is reported (R137), and HOLD, RAISING, TRANSPORT and
STARTUP_LOCK have no restore dial (R126). -/
def State.setHitch (st : HitchState) (s : State) : State :=
  { s with hitch := { s.hitch with
      state := st
      correcting := s.hitch.correcting && st == .control
      restore := if st.keepsRestore then s.hitch.restore else none } }

/-- A hitch state in which the transport test is made (R127). -/
def HitchState.tested : HitchState → Bool
  | .hold => true
  | .raising => true
  | .control => true
  | .lowering => true
  | .startupLock => false
  | .transport => false

/-- The transport test, while the transport request is 1; in RUN alone (R120, R122, R127). -/
def State.transportTest (s : State) : State :=
  if s.mode.op = .run ∧ s.intake.record.transport = true ∧ s.hitch.state.tested = true ∧ s.usable hitchPos = true
      ∧ (s.hitchT.upper : Int) - 20 ≤ s.shown hitchPos then s.setHitch .transport else s

/-- Entry into HOLD makes the transport test (R127). -/
def State.enterHold (s : State) : State := (s.setHitch .hold).transportTest

/-- The test of RAISING: at U_lim, or with no usable position, the hitch holds (R125). -/
def State.raisingTest (s : State) : State :=
  if s.usable hitchPos = false ∨ (s.hitchT.upper : Int) ≤ s.shown hitchPos then s.enterHold else s

def State.enterRaising (s : State) : State := (s.setHitch .raising).raisingTest

/-- Entry into LOWERING with a restore dial or none; with no usable position the hitch holds (R126). -/
def State.enterLowering (restore : Option Nat) (s : State) : State :=
  let s := s.setHitch .lowering
  let s : State := { s with hitch := { s.hitch with restore := restore } }
  if s.usable hitchPos then s else s.enterHold

/-- The match test in STARTUP_LOCK (R123). -/
def State.matchTest (s : State) : State :=
  if s.usable hitchPos = true ∧ ((s.intake.record.dial : Int) * 4 - s.shown hitchPos).natAbs ≤ s.hitchT.matchWindow
  then s.setHitch .control else s

/-- A LOWER press that would set LOWERING is ignored above the road lower inhibit (R124). -/
def State.lowerPress (s : State) : State :=
  if (s.hitchT.lowerInhibit : Int) < s.motion.record.vg then s else s.enterLowering none

/-- A hitch button press in RUN (R124). -/
def State.buttonPress (b : HitchButton) (s : State) : State :=
  if s.mode.op ≠ .run then s
  else match b, s.hitch.state with
    | .none, _ => s
    | _, .transport => s
    | .raise, .raising => s
    | .raise, _ => s.enterRaising
    | .lower, .hold => s.lowerPress
    | .lower, .raising => s.lowerPress
    | .lower, _ => s
    | .stop, .startupLock => s
    | .stop, .hold => s
    | .stop, _ => s.enterHold

/-- A change of the depth dial removes the restore dial and, in STARTUP_LOCK, makes the match test (R123, R126). -/
def State.dialChanged (s : State) : State :=
  let s : State := { s with hitch := { s.hitch with restore := none } }
  if s.hitch.state = .startupLock then s.matchTest else s

/-- A change of the transport request, in RUN (R122, R127). -/
def State.transportChanged (s : State) : State :=
  if s.mode.op ≠ .run then s
  else if s.intake.record.transport then s.transportTest
  else if s.hitch.state = .transport then s.enterHold else s

/-- An announced update (`valid`) or state change of HITCH_POS (R123, R125, R127, R128): the transport test first, and
then the test of the hitch state (log 29). -/
def State.hitchPosNews (valid : Bool) (s : State) : State :=
  let s := if valid then s.transportTest else s
  match s.hitch.state with
  | .startupLock => s.matchTest
  | .raising => s.raisingTest
  | .control => if s.usable hitchPos then s else s.enterHold
  | .lowering => if s.usable hitchPos then s else s.enterHold
  | .hold => s
  | .transport => s

/-- Entry into RUN (R122, R123). -/
def State.hitchRun (s : State) : State := (s.setHitch .startupLock).matchTest

/-- Departure from RUN (R122). -/
def State.hitchLeavesRun (s : State) : State :=
  let s := s.setHitch .hold
  { s with hitch := { s.hitch with memory := none, override := false } }

/-! ### The control step (R121, R126, R137) -/

def hitchValveData (u : Int) (st : HitchState) : List Byte := bytes2 u ++ [byte1 st.code]

/-- The report of correcting raise, and the merge into CONTROL, after the u of a step (R126, R137). -/
def State.afterLaw (u : Int) (s : State) : State :=
  match s.hitch.state with
  | .control => { s with hitch := { s.hitch with correcting := decide (u ≤ -(s.hitchT.correcting : Int)) } }
  | .lowering => if s.lawInputs.ePos.natAbs ≤ 50 then s.setHitch .control else s
  | .startupLock => s
  | .hold => s
  | .raising => s
  | .transport => s

/-- One control step (R121). -/
def State.controlStep (s : State) : State :=
  let s := s.expire s.hitch.timer
  let s : State := { s with hitch := { s.hitch with timer := s.nextPeriod s.hitch.timer Config.controlStepMs } }
  let u := s.hitchCommand
  (s.writeMail .hitchValve (hitchValveData u s.hitch.state)).afterLaw u

/-! ### The Headland Sequencer (R138 to R140) -/

/-- The memory an accepted OUT fills (R139). -/
def State.headlandSaved (s : State) : HeadlandMemory where
  dial := s.setDial
  lowering := s.hitch.state == .lowering
  gear := if s.intake.record.shiftMode = .auto ∨ s.gear.dirState = .n then none else s.referenceGear
  direction := s.gear.dirState

/-- The hitch's part of an accepted OUT (R139, items 1 to 3). -/
def State.headlandRaise (s : State) : State :=
  let s := ({ s with hitch := { s.hitch with memory := some s.headlandSaved } } : State).enterRaising
  { s with hitch := { s.hitch with override := true } }

/-- A headland OUT request is accepted (R139). -/
def State.acceptsOut (s : State) : Bool :=
  s.mode.op == .run && (s.hitch.state == .control || s.hitch.state == .lowering) && s.hitch.memory.isNone

/-- The restore dial of an accepted IN: the saved dial when the present one differs by 20 or less (R140). -/
def restoreDial (present saved : Nat) : Option Nat :=
  if ((present : Int) - saved).natAbs ≤ 20 then some saved else none

/-- The hitch's part of an accepted IN (R140, items 1 to 3 and 5). -/
def State.headlandLower (m : HeadlandMemory) (s : State) : State :=
  let s := s.enterLowering (restoreDial s.intake.record.dial m.dial)
  { s with hitch := { s.hitch with override := false, memory := none } }

/-- The memory of a headland IN request that is accepted (R140). -/
def State.acceptsIn (s : State) : Option HeadlandMemory :=
  if s.hitch.state ≠ .transport ∧ s.motion.record.vg ≤ (s.hitchT.lowerInhibit : Int) then s.hitch.memory else none

/-- The Headland Sequencer's part, and what it hands on: the override's change to the Front Axle Controller, the target
change to the Gear Selector, each taken there as an event of its own (R139, R140). -/
def State.headlandNews (r : HeadlandRequest) (s : State) : State :=
  match r with
  | .none => s
  | .out => if s.acceptsOut then s.headlandRaise.announceAll [.axle, .headlandOut] else s
  | .inn => match s.acceptsIn with
    | some m => (s.headlandLower m).announceAll [.axle, .headlandIn m.gear m.direction]
    | none => s

/-- The Hitch Controller's part of an accepted frame: levels, then the headland request, then the button (R129). -/
def State.hitchNews (n : OperatorNews) (s : State) : State :=
  let s := s.onlyIf n.dial State.dialChanged
  let s := s.onlyIf n.transport State.transportChanged
  (s.headlandNews n.headland).buttonPress n.button

end Sys2Proof.Machine
end

