-- ==== Sys2Proof/Machine/Mode.lean ====
section
/-! DEFINITION. The Mode Controller (R167 to R172) and who is told of what: changes of the operating state,
Motion Record updates (R28, R35), updates and state changes of slots (R8), and how the events that a command
brings are taken (logs 5 and 7). -/

namespace Sys2Proof.Machine

/-! ### Changes of the operating state -/

/-- The Gear Selector's and Shift Engine's part of an entry (R42, R43, R83). -/
def State.gearEnters (op : OpState) (s : State) : State :=
  match op with
  | .setup => s.gearSetup
  | .run => s.gearRun
  | .degraded => s.gearDegraded
  | .safeStop => s.gearSafeStop
  | .latched => s.gearSafeStop
  | .unloaded => s

/-- The hitch's part of a change (R122). -/
def State.hitchEnters (old new : OpState) (s : State) : State :=
  if new = .run then s.hitchRun else if old = .run then s.hitchLeavesRun else s

/-- A change of the operating state: the run timer (R172), the hitch's and the trailer's part at once (log 6), and the
change brought to the selector and the Front Axle Controller (R167). An entry into RUN brings a cause evaluation (R169,
R170). -/
def State.setOp (op : OpState) (s : State) : State :=
  let old := s.mode.op
  let s : State := { s with mode := { s.mode with
    op := op, runTimer := if op = .run then s.after Config.runMs else none } }
  let s := s.hitchEnters old op
  s.trailerEvaluate.announceAll (.entry op :: .axle :: if op = .run then [.causes] else [])

/-! ### Causes (R170 to R172) -/

/-- A SAFE_STOP cause is present (R170). -/
def State.safeStopCause (s : State) : Bool :=
  s.vLink.silence == .failed || s.mode.busOffCause
    || ((s.slot brakeL).state == .substituted && (s.slot brakeR).state == .substituted)

/-- A DEGRADED cause is present (R170). -/
def State.degradedCause (s : State) : Bool :=
  s.supervisor.tripped || (s.slot engSpeed).state == .substituted || (s.slot outSpeed).state == .substituted

/-- An entry into SAFE_STOP is counted; the fourth is an entry into LATCHED (R172). SAFE_STOP_LATCHED is raised at the
entry, before any block takes it: an order that R172 leaves open (log 32). -/
def State.enterSafeStop (s : State) : State :=
  let n := min 4 (s.mode.stops + 1)
  let s : State := { s with mode := { s.mode with stops := n } }
  if n = 4 then (s.setOp .latched).raise .safeStopLatched 0 else s.setOp .safeStop

/-- The test for leaving SAFE_STOP (R171). -/
def State.exitTest (s : State) : State :=
  if s.mode.op = .safeStop ∧ s.motion.record.standstill = true ∧ s.intake.record.direction = .n
      ∧ s.safeStopCause = false then s.setOp .run else s

/-- A cause evaluation (R170); in SAFE_STOP a change of a cause brings the exit test (R171). -/
def State.causeEval (s : State) : State :=
  match s.mode.op with
  | .run =>
    if s.safeStopCause then s.enterSafeStop else if s.degradedCause then s.setOp .degraded else s
  | .degraded =>
    if s.safeStopCause then s.enterSafeStop else if s.degradedCause then s else s.setOp .run
  | .safeStop => s.exitTest
  | .unloaded => s
  | .setup => s
  | .latched => s

/-! ### Updates and state changes of slots (R8), and the Motion Record updates they bring (R28, R35) -/

def SlotNews.any (n : SlotNews) (i : Fin 16) : Bool := n.valid.contains i || n.subst.contains i || n.changed.contains i

/-- A full recomputation is asked for (R23). -/
def SlotNews.full (n : SlotNews) : Bool := n.valid.contains wheelRear

/-- A recomputation is asked for: a full one, or a refresh (R23). -/
def SlotNews.recomputes (n : SlotNews) : Bool :=
  n.full || [wheelRear, wheelFront, radar].any fun i => n.changed.contains i || n.subst.contains i

/-- The Motion Estimator's part: one recomputation, and the evaluations of standstill and coupled braking, as one
update (R23, R28, R31, R34). -/
def State.motionUpdate (n : SlotNews) (s : State) : State :=
  let s := s.onlyIf n.recomputes (State.recompute n.full)
  let s := s.onlyIf (n.recomputes || n.any outSpeed) State.evalStandstill
  s.onlyIf (n.any brakeL || n.any brakeR) State.evalCoupled

/-- What a Motion Record update brings: the selector acts on each, the Front Axle Controller on one that changes a field,
the Fill Arbiter on the start of coupled braking, the Mode Controller on a change of standstill (R28, R35, R93, R171). -/
def MotionNews.notices (n : MotionNews) : List Notice :=
  .gear n :: ((if n.brakeStart then [.brake] else []) ++ (if n.changed then [.axle] else [])
    ++ if n.standstillChanged then [.exit] else [])

/-- A Motion Record update is announced: the post-braking hold starts and stops on it (R102), the trailer takes it at
once (log 6), and the other consumers take it as events of their own. -/
def State.announceMotion (n : MotionNews) (s : State) : State := (s.facBrakeNews n).trailerEvaluate.announceAll n.notices

/-- The update after a change of the record: announced when there was a recomputation, or a field changed (R28). -/
def State.motionChanged (before : MotionRecord) (recomputed : Bool) (s : State) : State :=
  let n := motionNews before s.motion.record
  s.onlyIf (recomputed || n.changed) (State.announceMotion n)

/-- The Motion Estimator takes an announcement of slots (R23, R28). -/
def State.motionTakes (n : SlotNews) (s : State) : State := (s.motionUpdate n).motionChanged s.motion.record n.recomputes

/-- A refresh asked for by a change of the FAC state (R23, R30). -/
def State.refreshMotion (s : State) : State := ((s.recompute false).evalStandstill).motionChanged s.motion.record true

/-- What an announcement of slots brings to the Motion Estimator, the Fill Arbiter, the Front Axle Controller and the Mode
Controller (R23, R88, R97, R170). -/
def SlotNews.notices (n : SlotNews) : List Notice :=
  .motion n :: ((if n.any supplyPress then [.supply] else []) ++ (if n.any steer then [.axle] else [])
    ++ if [engSpeed, outSpeed, brakeL, brakeR].any fun i => n.changed.contains i then [.causes] else [])

/-- An announcement reaches every block that reads the slots (R8): the release check, the hitch, the trailer and the line
check take it at once (log 6), the others as events of their own (log 5). -/
def State.announceSlots (n : SlotNews) (s : State) : State :=
  let s := s.onlyIf (n.any facPress) State.facCheckEval
  let s := s.onlyIf (n.any hitchPos) (State.hitchPosNews (n.valid.contains hitchPos))
  let s := s.onlyIf ([brakeL, brakeR, park, throttle, trailerCoupled].any n.any) State.trailerEvaluate
  let s := s.onlyIf (n.any trailerLine) State.lineCheckEval
  s.announceAll n.notices

/-! ### Taking what a command has brought (logs 5 and 7) -/

/-- A block takes an event. -/
def State.takeNotice (n : Notice) (s : State) : State :=
  match n with
  | .motion n => s.motionTakes n
  | .refresh => s.refreshMotion
  | .gear n => (s.onlyIf n.brakeStart State.gearBrakeStart).gearDecide true
  | .brake => s.arbiterBrakeStart
  | .supply => s.decideFill
  | .axle => s.facEvaluate
  | .entry op => s.gearEnters op
  | .causes => s.causeEval
  | .exit => s.exitTest
  | .operator n => s.gearNews n
  | .hitch n => s.hitchNews n
  | .headlandOut => s.headlandOut
  | .headlandIn saved direction => s.headlandIn saved direction

/-- What can follow when one event is taken; a state with none to take stays. -/
def State.nexts (s : State) : List State :=
  match takeable s.notices with
  | [] => [s]
  | ps => ps.map fun p => ({ s with notices := p.2 } : State).takeNotice p.1

/-- The states that all orders of the events lead to, with at most `fuel` events taken. -/
def State.outcomes : Nat → List State → List State
  | 0, ss => ss
  | fuel + 1, ss =>
    if ∀ s ∈ ss, s.notices = [] then ss else State.outcomes fuel (different (ss.flatMap State.nexts))

/-- All that a command has brought is taken, in any order (R94, log 5). -/
def State.settled (s : State) : State := s.pick (State.outcomes Config.settleFuel [s])

end Sys2Proof.Machine
end

