-- ==== Sys2Proof/Machine/Links.lean ====
section
/-! DEFINITION. The Link Controllers (chapter 10): error counts and states, silence monitor, passage queues
and the transmit choice. -/

namespace Sys2Proof.Machine

/-- A link index (chapter 10) as the index of a fault. -/
def State.raiseLink (k : FaultKind) (l : Link) (s : State) : State := s.raise k l.index

/-! ### Error counts and states (R157 to R159) -/

/-- The error state of the counts, outside BUS_OFF (R158). -/
def errorOf (tx rx : Nat) : ErrorState := if tx < 128 ∧ rx < 128 then .active else .passive

/-- The error state is derived anew at a change of a count (R158). -/
def LinkCtl.derived (c : LinkCtl) : LinkCtl :=
  { c with error := if c.error = .busOff then .busOff else errorOf c.txCount c.rxCount }

/-- A frame of this controller transmitted without error (R157). -/
def LinkCtl.txGood (c : LinkCtl) : LinkCtl := ({ c with txCount := c.txCount - 1 } : LinkCtl).derived

/-- A frame of another node received without error (R157). -/
def LinkCtl.rxGood (c : LinkCtl) : LinkCtl := ({ c with rxCount := c.rxCount - 1 } : LinkCtl).derived

/-- An error detected while receiving (R157). -/
def LinkCtl.rxBad (c : LinkCtl) : LinkCtl := ({ c with rxCount := min 255 (c.rxCount + 1) } : LinkCtl).derived

/-- An error detected while transmitting: plus 8, and BUS_OFF when that would pass 255 (R157, R159). -/
def LinkCtl.txBad (c : LinkCtl) : LinkCtl :=
  if 255 < c.txCount + 8 then { c with txCount := 255, error := .busOff }
  else ({ c with txCount := c.txCount + 8 } : LinkCtl).derived

/-- The bus-off timer starts at each entry of the V-link controller into BUS_OFF; a recovery stops it and ends
the cause (R170). -/
def State.busOffNews (before after : ErrorState) (s : State) : State :=
  if before ≠ .busOff ∧ after = .busOff then { s with mode := { s.mode with busOffTimer := s.after Config.busOffMs } }
  else if before = .busOff ∧ after ≠ .busOff then
    { s with mode := { s.mode with busOffTimer := none, busOffCause := false } }
  else s

/-- A new content of a Link Controller; a change of the V-link error or silence state is announced to the Mode
Controller (R158 to R160, R170). -/
def State.changeLink (l : Link) (c : LinkCtl) (s : State) : State :=
  let old := s.link l
  let s := s.setLink l c
  match l with
  | .t => s
  | .v =>
    let s := s.busOffNews old.error c.error
    if old.error ≠ c.error ∨ old.silence ≠ c.silence then s.announce .causes else s

/-! ### Receiving (R156, R160) -/

/-- A data frame with an 11-bit identifier counts for the silence monitor: the timer restarts, the state is OK, and
the link faults are gone (R160). -/
def State.countFrame (l : Link) (s : State) : State :=
  let s := s.changeLink l { (s.link l).rxGood with silence := .ok, silenceStart := some s.now }
  (s.gone .linkSuspect l.index).gone .linkFailed l.index

/-- A controller in BUS_OFF receives no frame (R159). -/
def State.hears (s : State) (l : Link) : Bool := (s.link l).error != .busOff

/-! ### Silence (R160) -/

/-- The time at which a silence time ends. -/
def LinkCtl.silenceAt (c : LinkCtl) (ms : Nat) : Timer := c.silenceStart.map (· + ms * Config.msTicks)

/-- 200 ms without a counted frame. -/
def State.linkSuspect (l : Link) (s : State) : State :=
  let c := s.link l
  if c.silence = .ok ∧ running c.silenceStart = true then
    ((s.expire (c.silenceAt Config.suspectMs)).changeLink l { c with silence := .suspect }).raiseLink .linkSuspect l
  else s

/-- 1000 ms without a counted frame; a SUSPECT that was not taken before is taken with it (log 19). -/
def State.linkFailed (l : Link) (s : State) : State :=
  let s := s.linkSuspect l
  let c := s.link l
  if c.silence = .suspect ∧ running c.silenceStart = true then
    ((s.expire (c.silenceAt Config.failedMs)).changeLink l { c with silence := .failed }).raiseLink .linkFailed l
  else s

/-! ### Passage queues (R3, R162) -/

/-- The most frames of a passage queue (R162). -/
def queueSize : Nat := 8

/-- A forwarded frame joins the tail, or is dropped (R162). -/
def State.enqueue (l : Link) (f : Frame) (s : State) : State :=
  let c := s.link l
  if c.queue.length < queueSize then s.setLink l { c with queue := c.queue ++ [f] }
  else (s.setLink l { c with dropTimer := s.after Config.dropMs }).raiseLink .passageDrop l

/-- The drop timer expires (R162). -/
def State.dropExpired (l : Link) (s : State) : State :=
  let c := s.link l
  if running c.dropTimer then
    ((s.expire c.dropTimer).setLink l { c with dropTimer := none }).gone .passageDrop l.index
  else s

/-! ### Transmit choice (R161, R163) -/

def MailboxId.all : List MailboxId :=
  [.statusDrive, .statusMotion, .faultReport, .shiftRecord, .reply, .clutchA, .clutchB, .hitchValve, .trailerValve]

/-- The frames of the pending mailboxes of a link, each with its identifier in the Emission Table in use. -/
def State.pendingMail (s : State) (l : Link) : List (OfferSource × Frame) :=
  MailboxId.all.filterMap fun id =>
    let b := s.mail.get id
    match b.content with
    | none => none
    | some data =>
      if id.link = l ∧ b.pending = true then some (.mailbox id, ⟨mailboxIdent (s.inUse .emission) id, data⟩) else none

/-- The candidates of an offer: the pending mailboxes, then the head of the queue. -/
def State.candidates (s : State) (l : Link) : List (OfferSource × Frame) :=
  s.pendingMail l ++ (s.link l).queue.head?.toList.map fun f => (.queue, f)

/-- The candidate with the lowest identifier, the earlier in the list when two share it. -/
def lowest : List (OfferSource × Frame) → Option (OfferSource × Frame)
  | [] => none
  | x :: xs =>
    match lowest xs with
    | none => some x
    | some y => if x.2.ident ≤ y.2.ident then some x else some y

/-- The DONE reply of a RESTART (R188, section 13.2). -/
def restartReply : List Byte := [0x3F, 0, 0, 0, 0, 0, 0, 0]

/-- The controller offers a frame when its bus is free and it may transmit (R163). The DONE reply of a pending
restart is marked; a MALFORMED reply that has replaced it in the mailbox is not (R181, R188, log 20). -/
def State.makeOffer (l : Link) (s : State) : State :=
  let c := s.link l
  if c.error ≠ .busOff ∧ c.offer = none then
    match lowest (s.candidates l) with
    | none => s
    | some (src, f) =>
      let done := src == .mailbox .reply && f.data == restartReply && running s.mgmt.restart
      s.setLink l { c with offer := some ⟨f, src, false, done⟩ }
  else s

/-- A successful transmission ends the pending state, unless the mailbox was written meanwhile, or takes the
head off the queue (R161 to R163). -/
def State.sent (l : Link) (o : Offer) (s : State) : State :=
  match o.source with
  | .mailbox id =>
    let b := s.mail.get id
    { s with mail := s.mail.put id { b with pending := o.rewritten } }
  | .queue =>
    let c := s.link l
    s.setLink l { c with queue := c.queue.tail }

/-- A frame on the bus ends transmitted and acknowledged (R157, R163). -/
def State.offerSent (l : Link) (o : Offer) (s : State) : State :=
  (s.changeLink l { (s.link l).txGood with offer := none }).sent l o

/-- A frame on the bus ends with an error (R157, R159, R163). -/
def State.offerFailed (l : Link) (s : State) : State := s.changeLink l { (s.link l).txBad with offer := none }

/-- Recovery from BUS_OFF (R159). -/
def State.recover (l : Link) (s : State) : State :=
  let c := s.link l
  if c.error = .busOff then s.changeLink l { c with txCount := 0, rxCount := 0, error := .active } else s

end Sys2Proof.Machine
end

