-- ==== Sys2Proof/Machine/Slots.lean ====
section
/-! DEFINITION. The signal slots (sections 1.2 and 1.3), and what a change of each table in use brings about. -/

namespace Sys2Proof.Machine

/-! ### Updates and expiries (R12 to R15) -/

/-- The timeout of a slot in the map in use, ms: that of the entry that feeds it (section 1.3). -/
def State.timeoutMs (s : State) (i : Fin 16) : Nat :=
  match feedingEntry (s.inUse .intakeMap) i with
  | some e => e.timeout
  | none => 0

/-- A valid update: FRESH, the value, the timer restarted; leaving SUBSTITUTED marks SIGNAL_LOST gone (R12). -/
def State.updateSlot (s : State) (i : Fin 16) (v : Int) : State :=
  let s := if (s.slot i).state = .substituted then s.gone .signalLost i.val else s
  s.setSlot i ⟨.fresh, v, s.after (s.timeoutMs i)⟩

/-- The valid updates of one frame; an extraction that feeds a slot UNMAPPED under the map in use is discarded (R15). -/
def State.applyUpdates (us : List (Fin 16 × Int)) (s : State) : State :=
  let us := us.filter fun u => (s.slot u.1).state != .unmapped
  let news : SlotNews :=
    { valid := us.map (·.1), subst := []
      changed := (us.map (·.1)).filter fun i => (s.slot i).state != .fresh }
  let s' := us.foldl (fun s u => s.updateSlot u.1 u.2) s
  if us = [] then s else s'.announceSlots news

/-- A slot goes to SUBSTITUTED and SIGNAL_LOST is raised (R14). -/
def State.loseSlot (i : Fin 16) (s : State) : State :=
  (s.setSlot i { s.slot i with state := .substituted, timer := none }).raise .signalLost i.val

/-- The timeout of a slot passes (R13). -/
def State.slotTimedOut (i : Fin 16) (s : State) : State :=
  let x := s.slot i
  let s := s.expire x.timer
  let hold := holdMsOf (s.inUse .slotTable) i
  let s := if x.state = .fresh ∧ 0 < hold then s.setSlot i { x with state := .held, timer := s.after hold }
    else s.loseSlot i
  s.announceSlots ⟨[], [], [i]⟩

/-- The hold time of a slot passes (R14). -/
def State.slotHoldPassed (i : Fin 16) (s : State) : State :=
  let s := s.expire (s.slot i).timer
  (s.loseSlot i).announceSlots ⟨[], [], [i]⟩

/-! ### Changes of the tables in use -/

/-- A slot under a new map in use (R11). -/
def State.freshSlot (s : State) (i : Fin 16) : Slot :=
  match feedingEntry (s.inUse .intakeMap) i with
  | some e => ⟨.waiting, 0, s.after e.timeout⟩
  | none => ⟨.unmapped, 0, none⟩

/-- A change of the Intake Map in use sets every slot anew (R11). -/
def State.mapChanged (before : List TWord) (s : State) : State :=
  let slots := Vector.ofFn s.freshSlot
  let all := List.finRange 16
  let changed := all.filter fun i => (s.slot i).state != (slots[i]).state
  let lost := all.filter fun i => (s.slot i).state == .substituted
  let s := lost.foldl (fun s i => s.gone .signalLost i.val) s
  ({ s with intake := { s.intake with slots := slots, mapBefore := before } } : State).announceSlots ⟨[], [], changed⟩

/-- A change of the Slot Table in use: every slot in UNMAPPED, WAITING or SUBSTITUTED is announced as updated, also
one whose substitute keeps its value (R10, log 14). -/
def State.substitutesChanged (s : State) : State :=
  s.announceSlots ⟨[], (List.finRange 16).filter fun i => !s.usable i, []⟩

/-- A change of the Trailer Table in use: the command limited to the new P_full, an evaluation, and the coupled braking
test (R34, R153). -/
def State.trailerTableChanged (s : State) : State :=
  let s := ({ s with trailer := { s.trailer with command := min s.trailer.command s.trailerT.pFull } } : State).trailerEvaluate
  s.evalCoupled.motionChanged s.motion.record false

/-- Each block takes a change of its table in use (R182, R185); `before` are the words in use before it. -/
def State.tableChanged (id : TableId) (before : List TWord) (s : State) : State :=
  match id with
  | .intakeMap => s.mapChanged before
  | .slotTable => s.substitutesChanged
  | .emission => s
  | .gear => if before = s.gearWords then s else s.gearTableChanged
  | .clutch => s.decideFill.facCheckEval
  | .shiftSchedule => s
  | .axle => s.facEvaluate
  | .hitch => s
  | .trailer => s.trailerTableChanged
  | .supervision => s

/-- A new loaded content that leaves the table UNCOMMITTED; it is a change of the table in use when the table was
COMMITTED (R182). -/
def State.loadTable (id : TableId) (ws : List TWord) (s : State) : State :=
  let t := s.table id
  let before := s.inUse id
  let s := s.setTable id ⟨.uncommitted, ws⟩
  if t.state = .committed then s.tableChanged id before else s

/-- A commit that passes (R185). -/
def State.commitTable (id : TableId) (s : State) : State :=
  let t := s.table id
  (s.setTable id { t with state := .committed }).tableChanged id (s.inUse id)

end Sys2Proof.Machine
end

