-- ==== Sys2Proof/Machine/Management.lean ====
section
/-! DEFINITION. The Management Responder (chapter 12), with the Mode Controller's and the Fault List's answers
to the requests they take (R168, R169, R179). -/

namespace Sys2Proof.Machine

/-! ### Replies (R181, section 13.2) -/

inductive Result where
  | done
  | inProgress
  | refusedState
  | notStationary
  | notReady
  | badTableId
  | badCursor
  | outOfRange
  | crcMismatch
  | inconsistent
  | busy
  | malformed
  | captureInvalid
  deriving DecidableEq, Repr

def Result.code : Result → Nat
  | .done => 0
  | .inProgress => 1
  | .refusedState => 2
  | .notStationary => 3
  | .notReady => 4
  | .badTableId => 5
  | .badCursor => 6
  | .outOfRange => 7
  | .crcMismatch => 8
  | .inconsistent => 9
  | .busy => 10
  | .malformed => 11
  | .captureInvalid => 12

/-- The eight bytes of a reply; data bytes not used are 0. -/
def replyData (code : Nat) (r : Result) (data : List Byte) : List Byte :=
  [byte1 code, byte1 r.code] ++ (data ++ List.replicate 6 0).take 6

def State.reply (code : Nat) (r : Result) (data : List Byte) (s : State) : State :=
  s.writeMail .reply (replyData code r data)

/-! ### Requests of single blocks -/

/-- STATUS_QUERY (R186, section 13.2). -/
def State.statusReply (s : State) : State :=
  let bits := tableStateBits s.tables
  s.reply 0x01 .done [byte1 s.mode.op.code, byte1 bits, byte1 (bits / 2 ^ 8 : Nat), byte1 (bits / 2 ^ 16 : Nat),
    byte1 s.mode.cause.code, byte1 (if s.mgmt.capture.isSome then 1 else 0)]

/-- The conditions of ENTER_SETUP in RUN (R168). -/
def State.stationary (s : State) : Bool :=
  s.motion.record.standstill && s.shown park == 1 && s.gear.dirState == .n

/-- The Mode Controller's outcome of ENTER_SETUP (R168). -/
def State.enterSetupResult (s : State) : Result :=
  match s.mode.op with
  | .unloaded => .done
  | .setup => .done
  | .run => if s.stationary then .done else .notStationary
  | .degraded => .refusedState
  | .safeStop => .refusedState
  | .latched => .refusedState

/-- ENTER_SETUP (R168). -/
def State.requestSetup (s : State) : State :=
  let r := s.enterSetupResult
  let s := if r = .done ∧ s.mode.op ≠ .setup then s.setOp .setup else s
  s.reply 0x02 r []

def allCommitted (ts : Tables) : Bool := TableId.all.all fun id => (ts.get id).state == .committed

/-- The Mode Controller's outcome of LEAVE_SETUP (R169). -/
def State.leaveSetupResult (s : State) : Result :=
  if s.mode.op ≠ .setup then .refusedState
  else if allCommitted s.tables = true ∧ s.supervisor.tripped = false ∧ s.intake.record.direction = .n then .done
  else .notReady

/-- LEAVE_SETUP (R169). -/
def State.requestRun (s : State) : State :=
  let r := s.leaveSetupResult
  let s := if r = .done then s.setOp .run else s
  s.reply 0x03 r []

/-- SELECT_TABLE (R183). -/
def State.selectCursor (id word : Nat) (s : State) : State :=
  match TableId.ofNat? id with
  | none => s.reply 0x10 .badTableId []
  | some t =>
    if t.size ≤ word then s.reply 0x10 .outOfRange []
    else
      ({ s with mgmt := { s.mgmt with cursor := some ⟨t, word⟩ } } : State).reply 0x10 .done [byte1 id, byte1 word]

/-- The cursor advances by one word (R183, R184). -/
def State.advance (c : Cursor) (s : State) : State :=
  { s with mgmt := { s.mgmt with cursor := some { c with word := c.word + 1 } } }

/-- WRITE_WORDS (R184). -/
def State.writeWord (check : Nat) (data : List Byte) (s : State) : State :=
  if s.mode.op ≠ .setup then s.reply 0x11 .refusedState []
  else match s.mgmt.cursor with
    | none => s.reply 0x11 .badCursor []
    | some c =>
      if check ≠ c.word % 256 then s.reply 0x11 .badCursor []
      else if c.table.size ≤ c.word then s.reply 0x11 .outOfRange []
      else
        let w := wordOf (dataAt data 0) (dataAt data 1) (dataAt data 2) (dataAt data 3) (dataAt data 4) (dataAt data 5)
        let s := (s.loadTable c.table ((s.table c.table).loaded.set c.word w)).advance c
        s.reply 0x11 .done [byte1 c.table.toNat, byte1 (c.word + 1 : Nat)]

/-- READ_WORDS (R183). -/
def State.readWord (s : State) : State :=
  match s.mgmt.cursor with
  | none => s.reply 0x12 .badCursor []
  | some c =>
    if c.table.size ≤ c.word then s.reply 0x12 .outOfRange []
    else (s.advance c).reply 0x12 .done (wordBytes (wordAt (s.table c.table).loaded c.word))

/-- COMMIT_TABLE (R185). -/
def State.requestCommit (id crc : Nat) (s : State) : State :=
  if s.mode.op ≠ .setup then s.reply 0x13 .refusedState []
  else match TableId.ofNat? id with
    | none => s.reply 0x13 .badTableId []
    | some t =>
      let ws := (s.table t).loaded
      if (crcOf ws).toNat ≠ crc then s.reply 0x13 .crcMismatch []
      else match commitCheck t (s.inUse .intakeMap) ws with
        | some i => s.reply 0x13 .inconsistent [byte1 i]
        | none => (s.commitTable t).reply 0x13 .done [byte1 id]

/-! ### FAULT_ACK (R179) -/

def FaultKind.ofNat? : Nat → Option FaultKind
  | 1 => some .signalLost
  | 2 => some .linkSuspect
  | 3 => some .linkFailed
  | 4 => some .passageDrop
  | 5 => some .cmdSupervision
  | 6 => some .shiftSyncTimeout
  | 7 => some .facNoRelease
  | 8 => some .draftChannel
  | 9 => some .trailerLine
  | 10 => some .safeStopLatched
  | _ => none

/-- The list without the entries an acknowledgement removes; an empty list has no overflow (R178, R179). -/
def Faults.without (f : Faults) (p : FaultEntry → Bool) : Faults :=
  let es := f.entries.filter fun e => !p e
  { f with entries := es, overflow := f.overflow && es != [] }

/-- The entry a FAULT_ACK of one entry names. -/
def Faults.named (f : Faults) (kind index : Nat) : Option FaultEntry :=
  match FaultKind.ofNat? kind with
  | none => none
  | some k => f.entries.find? (·.is k index)

/-- An acknowledgement at the Fault List: all entries, or one by kind and index (R179). -/
def Faults.acked (f : Faults) (one : Bool) (kind index : Nat) : Faults × Result :=
  if one then
    match f.named kind index with
    | none => (f.without fun _ => false, .done)
    | some e => if e.stored then (f.without fun x => x.is e.kind e.index, .done) else (f, .refusedState)
  else (f.without (·.stored), .done)

/-- FAULT_ACK (R179, R181). A reply to an undefined selector carries no number of entries: byte 2 is 0 (log 30). -/
def State.requestAck (sel kind index : Nat) (s : State) : State :=
  if 1 < sel then s.reply 0x20 .malformed []
  else
    let (f, r) := s.faults.acked (sel == 1) kind index
    ({ s with faults := f } : State).reply 0x20 r [byte1 f.entries.length]

/-! ### Zero capture (R187) -/

/-- CAPTURE_ZERO; an undefined selection is MALFORMED in every state (log 24). -/
def State.requestCapture (sel : Nat) (s : State) : State :=
  if sel = 0 ∨ 3 < sel then s.reply 0x30 .malformed []
  else if s.mode.op ≠ .setup then s.reply 0x30 .refusedState []
  else
    let c : Capture := ⟨sel == 1 || sel == 3, sel == 2 || sel == 3, 0, 0, 0, 0, 0⟩
    ({ s with mgmt := { s.mgmt with capture := some c } } : State).reply 0x30 .inProgress []

/-- A side's result joins its sum while fewer than 8 are gathered: the new sum and count. -/
def gather (selected : Bool) (sum count : Nat) (q : Option Nat) : Nat × Nat :=
  match q with
  | some q => if selected ∧ count < 8 then (sum + q, count + 1) else (sum, count)
  | none => (sum, count)

/-- A capture after a cycle end: items 1 and 2. -/
def Capture.after (c : Capture) (qL qR : Option Nat) : Capture :=
  let l := gather c.selL c.sumL c.countL qL
  let r := gather c.selR c.sumR c.countR qR
  { c with sumL := l.1, countL := l.2, sumR := r.1, countR := r.2, cycles := c.cycles + 1 }

/-- Every selected side has 8 results. -/
def Capture.full (c : Capture) : Bool := (!c.selL || c.countL == 8) && (!c.selR || c.countR == 8)

/-- Q0 of a sum: a quotient, clamped to 1 to 65534. -/
def zeroOf (sum : Nat) : Nat := (clamp 1 65534 (sum / 8 : Nat)).toNat

/-- Word 0 of table 8 with the Q0 of the selected sides (section 13.5). -/
def Capture.word (c : Capture) (w : TWord) : TWord :=
  let l := if c.selL then zeroOf c.sumL else halfOf w 2
  let r := if c.selR then zeroOf c.sumR else halfOf w 4
  wordOfHalves (halfOf w 0) l r

/-- The capture completes: Q0 written, table 8 UNCOMMITTED, the completion reply. -/
def State.captureDone (c : Capture) (s : State) : State :=
  let ws := s.tables.hitch.loaded
  let w := c.word (wordAt ws 0)
  let s := ({ s with mgmt := { s.mgmt with capture := none } } : State).loadTable .hitch (ws.set 0 w)
  s.reply 0x30 .done (bytes2 (halfOf w 2) ++ bytes2 (halfOf w 4))

/-- The Draft Capture Unit hands over the side results of a cycle (R119, R187). -/
def State.captureCycle (qL qR : Option Nat) (s : State) : State :=
  match s.mgmt.capture with
  | none => s
  | some c =>
    let c := c.after qL qR
    if c.full then s.captureDone c
    else if c.cycles = 24 then
      ({ s with mgmt := { s.mgmt with capture := none } } : State).reply 0x30 .captureInvalid []
    else { s with mgmt := { s.mgmt with capture := some c } }

/-! ### RESTART (R188) -/

def State.requestRestart (s : State) : State :=
  if s.motion.record.standstill = true ∧ s.gear.dirState = .n then
    ({ s with mgmt := { s.mgmt with restart := s.after Config.restartMs } } : State).reply 0x3F .done []
  else s.reply 0x3F .notStationary []

/-! ### Taking a request (R181) -/

/-- The minimum DLC of a request; none for a code that is no request. -/
def minimumDlc : Nat → Option Nat
  | 0x01 => some 1
  | 0x02 => some 1
  | 0x03 => some 1
  | 0x10 => some 3
  | 0x11 => some 8
  | 0x12 => some 1
  | 0x13 => some 4
  | 0x20 => some 4
  | 0x30 => some 2
  | 0x3F => some 1
  | _ => none

/-- Case 2: an unknown code, or fewer bytes than the request needs. -/
def tooShort (data : List Byte) : Bool :=
  match minimumDlc (dataAt data 0) with
  | none => true
  | some m => decide (data.length < m)

/-- Case 5: the rule of the request. -/
def State.handleRequest (data : List Byte) (s : State) : State :=
  let b := dataAt data
  match b 0 with
  | 0x01 => s.statusReply
  | 0x02 => s.requestSetup
  | 0x03 => s.requestRun
  | 0x10 => s.selectCursor (b 1) (b 2)
  | 0x11 => s.writeWord (b 1) (data.drop 2)
  | 0x12 => s.readWord
  | 0x13 => s.requestCommit (b 1) (b 2 + b 3 * 256)
  | 0x20 => s.requestAck (b 1) (b 2) (b 3)
  | 0x30 => s.requestCapture (b 1)
  | 0x3F => s.requestRestart
  | _ => s

/-- A request frame is taken by the first case that applies (R181). A MALFORMED or BUSY reply has no data, also to a
FAULT_ACK (log 30). -/
def State.takeRequest (data : List Byte) (s : State) : State :=
  if data = [] then s.reply 0 .malformed []
  else if tooShort data then s.reply (dataAt data 0) .malformed []
  else if s.mgmt.capture.isSome ∧ dataAt data 0 ≠ 0x01 then s.reply (dataAt data 0) .busy []
  else if running s.mgmt.restart then s
  else s.handleRequest data

end Sys2Proof.Machine
end

