-- ==== Sys2Proof/Machine/Draft.lean ====
section
/-! DEFINITION. The Draft Capture Unit (chapter 7). -/

namespace Sys2Proof.Machine

/-! ### Channel health (R114) -/

def Channel.index : Channel → Nat
  | .ref => 0
  | .l => 1
  | .r => 2

/-- The runs and the state of a channel after a result. -/
def ChannelHealth.after (h : ChannelHealth) (valid : Bool) : ChannelHealth :=
  let inv := if valid then 0 else min 3 (h.invalidRun + 1)
  let val := if valid then min 10 (h.validRun + 1) else 0
  { failed := if h.failed then val != 10 else inv == 3, invalidRun := inv, validRun := val }

def Draft.channel (d : Draft) : Channel → ChannelHealth
  | .ref => d.chRef
  | .l => d.chL
  | .r => d.chR

def Draft.setChannel (d : Draft) (c : Channel) (h : ChannelHealth) : Draft :=
  match c with
  | .ref => { d with chRef := h }
  | .l => { d with chL := h }
  | .r => { d with chR := h }

def State.withDraft (s : State) (f : Draft → Draft) : State := { s with draft := f s.draft }

/-- A result of a channel; a channel that becomes FAILED raises DRAFT_CHANNEL, one that becomes OK marks it gone. -/
def State.channelResult (c : Channel) (valid : Bool) (s : State) : State :=
  let h := s.draft.channel c
  let h' := h.after valid
  let s := s.withDraft fun d => d.setChannel c h'
  if !h.failed && h'.failed then s.raise .draftChannel c.index
  else if h.failed && !h'.failed then s.gone .draftChannel c.index
  else s

/-! ### Draft values (R115, R116) -/

/-- The draft value of a side (R115). -/
def sideDraft (q0 gain q : Nat) : Int := clamp (-2000) 2000 ((((q0 : Int) - q) * gain).tdiv 256)

/-- A side is included: its Q of this cycle, when it and the cycle are good (R116). -/
def includedQ (q : Option Nat) (side ref : ChannelHealth) (refFail : Bool) : Option Nat :=
  if side.failed || ref.failed || refFail then none else q

/-- The Draft Record from the included sides (R116). -/
def draftRecordOf (t : HitchTable) (qL qR : Option Nat) : DraftRecord :=
  match qL, qR with
  | some l, some r =>
    let dL := sideDraft t.q0L t.gainL l
    let dR := sideDraft t.q0R t.gainR r
    ⟨dL, dR, clamp (-4000) 4000 (dL + dR), .both⟩
  | some l, none => let dL := sideDraft t.q0L t.gainL l; ⟨dL, 0, 2 * dL, .leftOnly⟩
  | none, some r => let dR := sideDraft t.q0R t.gainR r; ⟨0, dR, 2 * dR, .rightOnly⟩
  | none, none => ⟨0, 0, 0, .none⟩

/-! ### The edge counter (R111, R112) -/

/-- The edge counter over the values of the time counter at successive rising edges: it counts the edges up to `limit`
and stops at a count of `stop`, telling the value at that edge. An edge that falls together with the limit stands in the
list when it is taken first (R111, R112, log 17). -/
def countEdges (limit stop : Nat) : Nat → List Nat → Nat × Option Nat
  | n, [] => (n, none)
  | n, t :: ts =>
    if limit < t then (n, none) else if n + 1 = stop then (n + 1, some t) else countEdges limit stop (n + 1) ts

/-- The count that ends a REF measurement early (R111). -/
def overrange : Nat := 4095

/-- The edges of the measurement in flight: up to the gate in a REF measurement, up to E_ref within 65535 in the
counting stage of a sensor measurement; none before the first edge (R111, R112). -/
def Draft.edgesTaken (d : Draft) (edges : List Nat) : Nat × Option Nat :=
  match d.pos with
  | .refLeft => countEdges d.limit overrange d.edgeCount edges
  | .refRight => countEdges d.limit overrange d.edgeCount edges
  | .left => if d.counting then countEdges d.limit (d.eRef.getD 0) d.edgeCount edges else (d.edgeCount, none)
  | .right => if d.counting then countEdges d.limit (d.eRef.getD 0) d.edgeCount edges else (d.edgeCount, none)

/-- The outcome of a REF measurement that reached its gate: E_ref, or none on an underrange (R111). -/
def Draft.gateOutcome (d : Draft) : Option Nat := if 16 ≤ d.edgeCount then some d.edgeCount else none

/-! ### The sequence (R110 to R113) -/

/-- The next measurement begins at `p` with both counters at 0; a REF measurement reads G at its start (R110, R111). -/
def State.beginMeasurement (p : CapturePos) (s : State) : State :=
  s.withDraft fun d =>
    { d with pos := p, timeCount := 0, edgeCount := 0, counting := false
             gate := match p with
               | .refLeft => s.hitchT.gate
               | .refRight => s.hitchT.gate
               | .left => d.gate
               | .right => d.gate }

/-- The cycle ends: the Draft Record is formed, a zero capture is handed the side results, and the next cycle
begins (R116, R119, R187). The next REF measurement reads G after the capture's change of table 8 (log 28). -/
def State.cycleEnd (s : State) : State :=
  let d := s.draft
  let void := d.refFailL || d.refFailR
  let qL := includedQ d.qL d.chL d.chRef void
  let qR := includedQ d.qR d.chR d.chRef void
  let s := s.withDraft fun d =>
    { d with record := draftRecordOf s.hitchT qL qR, qL := none, qR := none, refFailL := false, refFailR := false }
  (s.captureCycle qL qR).beginMeasurement .refLeft

/-- A REF measurement ends with `e` edges, or fails; a failure skips the sensor measurement after it (R111, R113). -/
def State.refEnded (e : Option Nat) (s : State) : State :=
  let s := (s.withDraft fun d => { d with eRef := e }).channelResult .ref e.isSome
  match s.draft.pos with
  | .refLeft =>
    match e with
    | some _ => s.beginMeasurement .left
    | none => (s.withDraft fun d => { d with refFailL := true, qL := none }).beginMeasurement .refRight
  | .refRight =>
    match e with
    | some _ => s.beginMeasurement .right
    | none => (s.withDraft fun d => { d with refFailR := true, qR := none }).cycleEnd
  | .left => s
  | .right => s

/-- A sensor measurement ends valid with Q, or stalled (R112). -/
def State.sensorEnded (q : Option Nat) (s : State) : State :=
  match s.draft.pos with
  | .left => ((s.withDraft fun d => { d with qL := q }).channelResult .l q.isSome).beginMeasurement .refRight
  | .right => ((s.withDraft fun d => { d with qR := q }).channelResult .r q.isSome).cycleEnd
  | .refLeft => s
  | .refRight => s

/-- A REF measurement is in flight. -/
def CapturePos.isRef : CapturePos → Bool
  | .refLeft => true
  | .refRight => true
  | .left => false
  | .right => false

/-- The time base moves on until the time counter shows `n`. -/
def State.untilCount (n : Nat) (s : State) : State := s.atTime (s.now + (n - s.draft.timeCount))

/-- The edge counter takes edges, and the time base moves on until the time counter shows `n`. -/
def State.measured (n : Nat) (edges : List Nat) (s : State) : State :=
  let count := (s.draft.edgesTaken edges).1
  (s.untilCount n).withDraft fun d => { d with edgeCount := count }

/-- A REF measurement with its edges: overrange at the 4095th within the gate, else the outcome at the gate (R111). -/
def State.refMeasured (edges : List Nat) (s : State) : State :=
  match (s.draft.edgesTaken edges).2 with
  | some t => (s.measured t edges).refEnded none
  | none =>
    let s := s.measured s.draft.gate edges
    s.refEnded s.draft.gateOutcome

/-- The gate of a REF measurement ends (R111). -/
def State.gateEnded (edges : List Nat) (s : State) : State := if s.draft.pos.isRef then s.refMeasured edges else s

/-- The edge counter reaches 4095 in a REF measurement: the edges it has not counted have come by now (R111). -/
def State.refOverranged (s : State) : State :=
  if s.draft.pos.isRef then s.refMeasured (List.replicate (overrange - s.draft.edgeCount) s.draft.timeCount) else s

/-- The first rising edge of a sensor measurement sets both counters to 0 (R112). -/
def State.firstEdgeSeen (s : State) : State :=
  if s.draft.pos.isRef || s.draft.counting then s
  else s.withDraft fun d => { d with timeCount := 0, edgeCount := 0, counting := true }

/-- A sensor measurement with its edges: valid at the edge on which the edge counter reaches E_ref, with the time
counter there as Q, at least 1; stalled when the time counter reaches 65535 first (R112). -/
def State.sensorMeasured (edges : List Nat) (s : State) : State :=
  match (s.draft.edgesTaken edges).2 with
  | some 0 => s
  | some (q + 1) => (s.measured (q + 1) edges).sensorEnded (some (q + 1))
  | none => (s.measured s.draft.limit edges).sensorEnded none

/-- The counting stage of a sensor measurement ends (R112). -/
def State.sensorDone (edges : List Nat) (s : State) : State :=
  if s.draft.pos.isRef = false ∧ s.draft.counting = true then s.sensorMeasured edges else s

/-- The time counter reaches 65535 in either stage, with no edge that reaches E_ref (R112). -/
def State.sensorStalled (s : State) : State := if s.draft.pos.isRef then s else s.sensorMeasured []

end Sys2Proof.Machine
end

