-- ==== Sys2Proof/Machine/Supervisor.lean ====
section
/-! DEFINITION. The Command Supervisor (R174 to R176) and the Operator Request Record with what its changes hand on
(R16 to R19). -/

namespace Sys2Proof.Machine

def State.withSupervisor (s : State) (f : Supervisor → Supervisor) : State := { s with supervisor := f s.supervisor }

/-! ### Errors (R175) -/

/-- An early, token or late error: E increases; at the trip level an OK supervisor trips; a TRIPPED one loses its good
run. -/
def State.supervisorError (s : State) : State :=
  let e := min 255 (s.supervisor.errors + 1)
  let s := s.withSupervisor fun v => { v with errors := e }
  if s.supervisor.tripped then s.withSupervisor fun v => { v with goodRun := 0 }
  else if s.superT.trip ≤ e then
    ((s.withSupervisor fun v => { v with tripped := true, goodRun := 0 }).raise .cmdSupervision 0).announce .causes
  else s

/-- The late timer expires: a late error, and the timer restarts with T_max (R175). -/
def State.lateExpired (s : State) : State :=
  let s := s.expire s.supervisor.late
  (s.withSupervisor fun v => { v with late := s.after s.superT.tMaxMs }).supervisorError

/-! ### The test of a frame (R174) -/

/-- Less than T_min has passed since the last accepted frame. -/
def State.tooEarly (s : State) : Bool :=
  match s.supervisor.lastAccepted with
  | none => false
  | some t => decide (s.now - t < s.superT.tMinMs * Config.msTicks)

/-- The expected token. -/
def Supervisor.token (v : Supervisor) : Nat := if v.expectLow then 0x3C else 0xC3

/-- The supervisor after an accepted frame: the next token, E less 1, the time, the late timer, and the good run of
a TRIPPED supervisor. -/
def State.supervisorAccepts (s : State) : State :=
  s.withSupervisor fun v =>
    { v with expectLow := !v.expectLow, errors := v.errors - 1, lastAccepted := some s.now
             late := s.after s.superT.tMaxMs
             goodRun := if v.tripped then min 255 (v.goodRun + 1) else v.goodRun }

/-- The recovery test after an accepted frame (R176). -/
def State.recoveryTest (s : State) : State :=
  if s.supervisor.tripped = true ∧ s.superT.recovery ≤ s.supervisor.goodRun ∧ s.intake.record.direction = .n then
    ((s.withSupervisor fun v => { v with tripped := false, errors := 0, goodRun := 0 }).gone .cmdSupervision 0).announce
      .causes
  else s

/-! ### The Operator Request Record (R16 to R18, section 13.1) -/

/-- A code of 3 holds the previous direction request (R17). -/
def directionOfCode (old : DirState) : Nat → DirState
  | 0 => .n
  | 1 => .f
  | 2 => .r
  | _ => old

/-- A code of 3 holds the previous 4WD mode (R17). -/
def driveModeOfCode (old : DriveMode) : Nat → DriveMode
  | 0 => .off
  | 1 => .on
  | 2 => .auto
  | _ => old

/-- A code of 3 holds the previous headland request (R17). -/
def headlandOfCode (old : HeadlandRequest) : Nat → HeadlandRequest
  | 0 => .none
  | 1 => .out
  | 2 => .inn
  | _ => old

def buttonOfCode : Nat → HitchButton
  | 1 => .raise
  | 2 => .lower
  | 3 => .stop
  | _ => .none

/-- The bits `lo` to `lo + len - 1` of a data byte. -/
def bitsOf (data : List Byte) (k lo len : Nat) : Nat := dataAt data k / 2 ^ lo % 2 ^ len

/-- The record after an accepted frame (R16, R17). -/
def OperatorRecord.after (r : OperatorRecord) (data : List Byte) : OperatorRecord where
  direction := directionOfCode r.direction (bitsOf data 2 0 2)
  shiftMode := if bitsOf data 2 2 1 = 1 then .auto else .manual
  driveMode := driveModeOfCode r.driveMode (bitsOf data 2 3 2)
  headland := headlandOfCode r.headland (bitsOf data 3 0 2)
  button := buttonOfCode (bitsOf data 3 2 2)
  transport := bitsOf data 3 4 1 == 1
  dial := min 250 (dataAt data 4)
  mix := min 100 (dataAt data 5)
  drop := min 100 (dataAt data 6)
  slipLimit := min 50 (dataAt data 7)
  lastUp := some (BitVec.ofNat 4 (bitsOf data 1 0 4))
  lastDown := some (BitVec.ofNat 4 (bitsOf data 1 4 4))

/-- The presses a counter brings: the difference modulo 16, 8 to 15 a jump, none with no memory (R18). -/
def presses (last : Option (BitVec 4)) (new : BitVec 4) : Nat :=
  match last with
  | none => 0
  | some l => let d := (new - l).toNat; if d ≤ 7 then d else 0

/-! ### What is handed on (R19) -/

def operatorNews (before after : OperatorRecord) : OperatorNews where
  direction := before.direction != after.direction
  shiftMode := before.shiftMode != after.shiftMode
  driveMode := before.driveMode != after.driveMode
  transport := before.transport != after.transport
  dial := before.dial != after.dial
  ups := match after.lastUp with
    | some n => presses before.lastUp n
    | none => 0
  downs := match after.lastDown with
    | some n => presses before.lastDown n
    | none => 0
  headland := if before.lastUp.isSome ∧ before.headland = .none then after.headland else .none
  button := if before.lastUp.isSome ∧ before.button = .none then after.button else .none

/-- What an accepted frame announces: to the Gear Selector, to the Front Axle Controller, to the Hitch Controller, and
for the test of leaving SAFE_STOP (R16, R19, R171). -/
def OperatorNews.notices (n : OperatorNews) : List Notice :=
  .operator n :: ((if n.driveMode then [.axle] else []) ++ .hitch n :: if n.direction then [.exit] else [])

/-- The changes of one accepted frame are handed to their consumers (R16, R19, log 5). -/
def State.handOn (n : OperatorNews) (s : State) : State := s.announceAll n.notices

/-- An accepted frame (R16, R174, R176). -/
def State.acceptCommand (data : List Byte) (s : State) : State :=
  let old := s.intake.record
  let new := old.after data
  let s := ({ s with intake := { s.intake with record := new } } : State).supervisorAccepts.recoveryTest
  s.handOn (operatorNews old new)

/-- An Operator Command frame at the Command Supervisor (R174). -/
def State.operatorFrame (data : List Byte) (s : State) : State :=
  if s.tooEarly then s.supervisorError
  else if dataAt data 0 ≠ s.supervisor.token then s.supervisorError
  else s.acceptCommand data

end Sys2Proof.Machine
end

