-- ==== Sys2Proof/Machine/Intake.lean ====
section
/-! DEFINITION. The Frame Intake (chapter 1): a data frame that a link receives is counted, classified, forwarded and
handed on, and so are the commands that bring one. -/

namespace Sys2Proof.Machine

/-- A matched frame with the forward flag is copied to the other link's queue (R3). -/
def State.forward (l : Link) (e : MapEntry) (f : Frame) (s : State) : State :=
  if e.forward then s.enqueue l.other f else s

/-- The map a frame is matched against: that in use at its arrival (R1). -/
def State.mapFor (s : State) (early : Bool) : List TWord :=
  if early then s.intake.mapBefore else s.inUse .intakeMap

/-- A data frame is handled by the first case of R2 that applies. -/
def State.takeFrame (l : Link) (early : Bool) (f : Frame) (s : State) : State :=
  match classify (s.mapFor early) l f with
  | .management => s.takeRequest f.data
  | .unmatched => s
  | .signal e => (s.forward l e f).applyUpdates (extractAll e f.data)
  | .operator e => (s.forward l e f).operatorFrame f.data

/-- A data frame with an 11-bit identifier arrives on a link: it is counted first, then it reaches the Frame Intake
(R2, R156, R160). -/
def State.receive (time : Time) (l : Link) (early : Bool) (f : Frame) (s : State) : State :=
  s.unlessReset fun s =>
    if s.hears l then (((s.atTime time).countFrame l).takeFrame l early f).settled else s

/-- A frame of the T-link with identifier 0x7B0 (R2, R181); `code` is its byte 0. -/
def State.receiveRequest (time : Time) (code : Byte) (r : ReqFrame) (s : State) : State :=
  s.receive time .t false ⟨0x7B0, rxData r.dlcCode (code :: r.rest)⟩

/-! ### Received frames -/

/-- SIGNAL_FRAME (R12). -/
def execSignalFrame (time : Time) (l : Link) (early : Bool) (f : RxFrame) (s : State) :
    Host.Outcome State Fault Refusal := .next (s.receive time l early (rxFrame f))

/-- OPERATOR_COMMAND (R174). -/
def execOperatorCommand (time : Time) (l : Link) (early : Bool) (f : RxFrame) (s : State) :
    Host.Outcome State Fault Refusal := .next (s.receive time l early (rxFrame f))

/-- UNMATCHED_FRAME (R2). -/
def execUnmatchedFrame (time : Time) (l : Link) (early : Bool) (f : RxFrame) (s : State) :
    Host.Outcome State Fault Refusal := .next (s.receive time l early (rxFrame f))

/-- OTHER_FRAME_RECEIVED: a remote frame or one with an extended identifier, acknowledged, neither counted for silence
nor handed on (R156, R157). -/
def execOtherFrameReceived (l : Link) (s : State) : Host.Outcome State Fault Refusal :=
  .next (s.unlessReset fun s => if s.hears l then (s.changeLink l (s.link l).rxGood).settled else s)

/-- FRAME_RX_ERROR (R157). -/
def execFrameRxError (l : Link) (s : State) : Host.Outcome State Fault Refusal :=
  .next (s.unlessReset fun s => if s.hears l then (s.changeLink l (s.link l).rxBad).settled else s)

/-! ### Management requests -/

/-- STATUS_QUERY (R186). -/
def execStatusQuery (time : Time) (code : Byte) (r : ReqFrame) (s : State) : Host.Outcome State Fault Refusal :=
  .next (s.receiveRequest time code r)

/-- ENTER_SETUP (R168). -/
def execEnterSetup (time : Time) (r : ReqFrame) (s : State) : Host.Outcome State Fault Refusal :=
  .next (s.receiveRequest time 0x02 r)

/-- LEAVE_SETUP (R169). -/
def execLeaveSetup (time : Time) (r : ReqFrame) (s : State) : Host.Outcome State Fault Refusal :=
  .next (s.receiveRequest time 0x03 r)

/-- SELECT_TABLE (R183). -/
def execSelectTable (time : Time) (r : ReqFrame) (s : State) : Host.Outcome State Fault Refusal :=
  .next (s.receiveRequest time 0x10 r)

/-- WRITE_WORDS (R184). -/
def execWriteWords (time : Time) (r : ReqFrame) (s : State) : Host.Outcome State Fault Refusal :=
  .next (s.receiveRequest time 0x11 r)

/-- READ_WORDS (R183). -/
def execReadWords (time : Time) (r : ReqFrame) (s : State) : Host.Outcome State Fault Refusal :=
  .next (s.receiveRequest time 0x12 r)

/-- COMMIT_TABLE (R185). -/
def execCommitTable (time : Time) (r : ReqFrame) (s : State) : Host.Outcome State Fault Refusal :=
  .next (s.receiveRequest time 0x13 r)

/-- FAULT_ACK (R179). -/
def execFaultAck (time : Time) (r : ReqFrame) (s : State) : Host.Outcome State Fault Refusal :=
  .next (s.receiveRequest time 0x20 r)

/-- CAPTURE_ZERO (R187). -/
def execCaptureZero (time : Time) (r : ReqFrame) (s : State) : Host.Outcome State Fault Refusal :=
  .next (s.receiveRequest time 0x30 r)

/-- RESTART (R188). -/
def execRestart (time : Time) (r : ReqFrame) (s : State) : Host.Outcome State Fault Refusal :=
  .next (s.receiveRequest time 0x3F r)

end Sys2Proof.Machine
end

