-- ==== Sys2Proof/Machine/Reset.lean ====
section
/-! DEFINITION. Resets (R173, R188): their beginning, their end, and the commands that bring them. -/

namespace Sys2Proof.Machine

/-- A reset that begins while another is in progress joins it: power-on, pin and management count in this order (R173). -/
def joinReset : Option ResetKind → ResetKind → ResetKind
  | some .powerOn, _ => .powerOn
  | _, .powerOn => .powerOn
  | some .pin, _ => .pin
  | _, .pin => .pin
  | _, .management => .management

/-- A link in a reset: no timer runs and no frame is on the bus from this controller. -/
def LinkCtl.quiet (c : LinkCtl) : LinkCtl := { c with silenceStart := none, dropTimer := none, offer := none }

/-- No timer of the part runs, and neither link moves a frame (R173). -/
def State.quiet (s : State) : State :=
  { s with
    intake := { s.intake with slots := Vector.ofFn fun i => { s.intake.slots[i] with timer := none } }
    motion := { s.motion with timer := none }
    gear := { s.gear with
      shuttle := s.gear.shuttle.map fun x => { x with timer := none }
      holdOff := none
      deferral := match s.gear.deferral with
        | .running _ => .stopped
        | .stopped => .stopped
        | .expired => .expired }
    shift := { s.shift with timer := none }
    fac := { s.fac with pulseTimer := none, fillTimer := none, dwell := none, brakeHold := none, check := none }
    hitch := { s.hitch with timer := none }
    trailer := { s.trailer with tail := none, lineCheck := none, timer := none }
    tLink := s.tLink.quiet
    vLink := s.vLink.quiet
    emission := none
    mode := { s.mode with busOffTimer := none, runTimer := none }
    supervisor := { s.supervisor with late := none }
    faults := { s.faults with entries := s.faults.entries.map fun e => { e with timer := none } }
    mgmt := { s.mgmt with restart := none } }

/-- A reset begins, or joins the one in progress; NEUT goes low and a pending restart is dropped (R166, R173, R188). -/
def State.beginReset (k : ResetKind) (s : State) : State :=
  let s := s.quiet
  { s with
    resetting := some (joinReset s.resetting k), neut := false, notices := []
    mode := { s.mode with stops := if k = .powerOn then 0 else s.mode.stops } }

/-- The end of a reset of kind `k`: every block as its chapter gives it after any reset. The queue of commands and the
counter of the free value are the model's own; the time base counts from this end (log 1, log 4). -/
def State.afterReset (k : ResetKind) (s : State) : State :=
  { State.reset with
    pending := s.pending, free := s.free
    mode := { State.reset.mode with cause := k, stops := if k = .powerOn then 0 else s.mode.stops } }

/-- POWER_ON_RESET (R173). -/
def execPowerOnReset (s : State) : Host.Outcome State Fault Refusal := .next (s.beginReset .powerOn)

/-- PIN_RESET: RSTN goes low (R173). -/
def execPinReset (s : State) : Host.Outcome State Fault Refusal :=
  .next { s.beginReset .pin with rstn := false }

/-- RESET_END: the reset in progress, with all that joined it, ends; RSTN is high then (R173). -/
def execResetEnd (s : State) : Host.Outcome State Fault Refusal :=
  .next (match s.resetting with
    | none => s
    | some k => s.afterReset k)

/-- A pending management restart begins (R188). -/
def State.restartBegins (s : State) : State :=
  if running s.mgmt.restart then (s.expire s.mgmt.restart).beginReset .management else s

/-- RESTART_BEGIN: 100 ms after the acceptance, when the reply has not been transmitted by then (R188). -/
def execRestartBegin (s : State) : Host.Outcome State Fault Refusal := .next (s.unlessReset State.restartBegins)

end Sys2Proof.Machine
end

