-- ==== Sys2Proof/Machine/Bus.lean ====
section
/-! DEFINITION. The commands of a link's bus and of its timers (chapter 10). -/

namespace Sys2Proof.Machine

/-- TRANSMIT_OFFER (R163). -/
def execTransmitOffer (l : Link) (s : State) : Host.Outcome State Fault Refusal :=
  .next (s.unlessReset (State.makeOffer l))

/-- A transmission ends well; the DONE reply of a pending restart begins the restart (R163, R188, log 20). -/
def State.transmitted (l : Link) (s : State) : State :=
  match (s.link l).offer with
  | none => s
  | some o =>
    let s := (s.offerSent l o).settled
    if o.restartDone ∧ running s.mgmt.restart = true then s.beginReset .management else s

/-- TX_SUCCESS (R163). -/
def execTxSuccess (l : Link) (s : State) : Host.Outcome State Fault Refusal :=
  .next (s.unlessReset (State.transmitted l))

/-- TX_ERROR, with a frame of this controller on the bus (R157). -/
def execTxError (l : Link) (s : State) : Host.Outcome State Fault Refusal :=
  .next (s.unlessReset fun s => match (s.link l).offer with
    | none => s
    | some _ => (s.offerFailed l).settled)

/-- ARBITRATION_LOST: the frame stays pending; the winning frame comes as a command of its own (R163). -/
def execArbitrationLost (l : Link) (s : State) : Host.Outcome State Fault Refusal :=
  .next (s.unlessReset fun s => s.setLink l { s.link l with offer := none })

/-- BUS_OFF_RECOVERY (R159). -/
def execBusOffRecovery (l : Link) (s : State) : Host.Outcome State Fault Refusal :=
  .next (s.unlessReset fun s => (s.recover l).settled)

/-- LINK_SUSPECT_TIMEOUT (R160). -/
def execLinkSuspectTimeout (l : Link) (s : State) : Host.Outcome State Fault Refusal :=
  .next (s.unlessReset fun s => (s.linkSuspect l).settled)

/-- LINK_FAILED_TIMEOUT (R160). -/
def execLinkFailedTimeout (l : Link) (s : State) : Host.Outcome State Fault Refusal :=
  .next (s.unlessReset fun s => (s.linkFailed l).settled)

/-- PASSAGE_DROP_TIMEOUT (R162). -/
def execPassageDropTimeout (l : Link) (s : State) : Host.Outcome State Fault Refusal :=
  .next (s.unlessReset (State.dropExpired l))

end Sys2Proof.Machine
end

