-- ==== Sys2Proof/Machine/Expiries.lean ====
section
/-! DEFINITION. The commands of slot, motion, selector, front axle, mode, supervisor and fault timers. An expiry of
a timer that does not run is an event that cannot occur and has no effect (log 3). -/

namespace Sys2Proof.Machine

/-! ### Slots (R13, R14) -/

/-- SLOT_TIMEOUT (R13). -/
def execSlotTimeout (i : Fin 16) (s : State) : Host.Outcome State Fault Refusal :=
  .next (s.unlessReset fun s =>
    if (s.slot i).state = .fresh ∨ (s.slot i).state = .waiting then (s.slotTimedOut i).settled else s)

/-- SLOT_HOLD_EXPIRY (R14). -/
def execSlotHoldExpiry (i : Fin 16) (s : State) : Host.Outcome State Fault Refusal :=
  .next (s.unlessReset fun s => if (s.slot i).state = .held then (s.slotHoldPassed i).settled else s)

/-! ### Motion and gear selection (R32, R52, R54, R56) -/

/-- The 500 ms of the standstill timer pass (R32). -/
def State.standstillReached (s : State) : State :=
  let s := s.expire s.motion.timer
  let before := s.motion.record
  ({ s with motion := ⟨{ before with standstill := true }, none⟩ } : State).motionChanged before false

/-- STANDSTILL_TIMER_EXPIRY (R32). -/
def execStandstillTimerExpiry (s : State) : Host.Outcome State Fault Refusal :=
  .next (s.unlessReset fun s => if running s.motion.timer then s.standstillReached.settled else s)

/-- The shuttle pending time passes (R52). -/
def State.shuttleDropped (s : State) : State :=
  match s.gear.shuttle with
  | none => s
  | some x => (s.expire x.timer).withGear fun g => { g with shuttle := none, flag := .dropped }

/-- SHUTTLE_PENDING_EXPIRY (R52). -/
def execShuttlePendingExpiry (s : State) : Host.Outcome State Fault Refusal :=
  .next (s.unlessReset State.shuttleDropped)

/-- The hold-off passes (R54). -/
def State.holdOffPassed (s : State) : State :=
  (s.expire s.gear.holdOff).withGear fun g => { g with holdOff := none }

/-- HOLD_OFF_EXPIRY (R54). -/
def execHoldOffExpiry (s : State) : Host.Outcome State Fault Refusal :=
  .next (s.unlessReset fun s => if running s.gear.holdOff then s.holdOffPassed else s)

/-- T_defer passes (R56). -/
def State.deferralPassed (s : State) : State :=
  match s.gear.deferral with
  | .running t => (s.expire t).withGear fun g => { g with deferral := .expired }
  | .stopped => s
  | .expired => s

/-- DEFERRAL_TIMER_EXPIRY (R56). -/
def execDeferralTimerExpiry (s : State) : Host.Outcome State Fault Refusal :=
  .next (s.unlessReset State.deferralPassed)

/-! ### Front axle (R101, R102, R104, R107) -/

/-- T_pulse passes: the command becomes P_hold (R104). -/
def State.pulseEnded (s : State) : State :=
  let s := s.expire s.fac.pulseTimer
  { s with fac := { s.fac with fillKPa := s.fac.holdKPa, pulseTimer := none } }

/-- FAC_PULSE_END (R104). -/
def execFacPulseEnd (s : State) : Host.Outcome State Fault Refusal :=
  .next (s.unlessReset fun s => if running s.fac.pulseTimer then s.pulseEnded else s)

/-- FAC_FILL_END (R104). -/
def execFacFillEnd (s : State) : Host.Outcome State Fault Refusal :=
  .next (s.unlessReset fun s =>
    if running s.fac.fillTimer then (s.expire s.fac.fillTimer).facFilled.settled else s)

/-- The dwell timer expires: an evaluation (R101). -/
def State.dwellPassed (s : State) : State :=
  let s := s.expire s.fac.dwell
  ({ s with fac := { s.fac with dwell := none } } : State).facEvaluate

/-- DWELL_EXPIRY (R101). -/
def execDwellExpiry (s : State) : Host.Outcome State Fault Refusal :=
  .next (s.unlessReset fun s => if running s.fac.dwell then s.dwellPassed.settled else s)

/-- The post-braking hold timer expires: an evaluation (R102). -/
def State.brakeHoldPassed (s : State) : State :=
  let s := s.expire s.fac.brakeHold
  ({ s with fac := { s.fac with brakeHold := none } } : State).facEvaluate

/-- BRAKE_HOLD_EXPIRY (R102). -/
def execBrakeHoldExpiry (s : State) : Host.Outcome State Fault Refusal :=
  .next (s.unlessReset fun s => if running s.fac.brakeHold then s.brakeHoldPassed.settled else s)

/-- The check timer's 500 ms pass: FAC_NO_RELEASE (R107). -/
def State.checkFailed (s : State) : State :=
  let s := s.expire s.fac.check
  ({ s with fac := { s.fac with check := none, noRelease := true } } : State).raise .facNoRelease 0

/-- RELEASE_CHECK_EXPIRY (R107). -/
def execReleaseCheckExpiry (s : State) : Host.Outcome State Fault Refusal :=
  .next (s.unlessReset fun s => if running s.fac.check then s.checkFailed else s)

/-! ### Mode, supervisor and faults (R170, R172, R175, R177) -/

/-- 500 ms in BUS_OFF on the V-link (R170). -/
def State.busOffPassed (s : State) : State :=
  let s := s.expire s.mode.busOffTimer
  ({ s with mode := { s.mode with busOffTimer := none, busOffCause := true } } : State).announce .causes

/-- BUS_OFF_TIMER_EXPIRY (R170). -/
def execBusOffTimerExpiry (s : State) : Host.Outcome State Fault Refusal :=
  .next (s.unlessReset fun s => if running s.mode.busOffTimer then s.busOffPassed.settled else s)

/-- 600 s in RUN (R172). -/
def State.runPassed (s : State) : State :=
  let s := s.expire s.mode.runTimer
  { s with mode := { s.mode with runTimer := none, stops := 0 } }

/-- RUN_TIMER_EXPIRY (R172). -/
def execRunTimerExpiry (s : State) : Host.Outcome State Fault Refusal :=
  .next (s.unlessReset fun s => if running s.mode.runTimer then s.runPassed else s)

/-- LATE_TIMER_EXPIRY (R175). -/
def execLateTimerExpiry (s : State) : Host.Outcome State Fault Refusal :=
  .next (s.unlessReset fun s => if running s.supervisor.late then s.lateExpired.settled else s)

/-- An entry one second older (R177). -/
def FaultEntry.older (e : FaultEntry) : FaultEntry :=
  { e with age := min 65535 (e.age + 1), timer := some (e.timer.getD 0 + Config.ageMs * Config.msTicks) }

/-- The age timer of an entry expires (R177). -/
def State.ageEntry (k : FaultKind) (i : Nat) (s : State) : State :=
  match s.faults.entries.find? (·.is k i) with
  | none => s
  | some e =>
    let s := s.expire e.timer
    { s with faults := { s.faults with entries := s.faults.entries.map fun x => if x.is k i then x.older else x } }

/-- FAULT_AGE_TICK (R177). -/
def execFaultAgeTick (k : FaultKind) (i : Fin 16) (s : State) : Host.Outcome State Fault Refusal :=
  .next (s.unlessReset (State.ageEntry k i.val))

end Sys2Proof.Machine
end

