-- ==== Sys2Proof/Machine/Steps.lean ====
section
/-! DEFINITION. The commands of the clutch step, the draft capture, the control step, the trailer and the
emission. -/

namespace Sys2Proof.Machine

/-! ### Clutch step (R59, R65, R70) -/

/-- CLUTCH_STEP (R59). -/
def execClutchStep (s : State) : Host.Outcome State Fault Refusal :=
  .next (s.unlessReset fun s => s.clutchStep.settled)

/-- FILL_WAIT_TIMEOUT: the clutch step on which WAIT_SUPPLY reaches T_fill_wait (R65, log 9). -/
def execFillWaitTimeout (s : State) : Host.Outcome State Fault Refusal :=
  .next (s.unlessReset fun s => if s.fillWaitDue then s.clutchStep.settled else s)

/-- SYNC_TIMEOUT: the clutch step on which SYNC reaches T_sync_max without sync (R70, log 9). -/
def execSyncTimeout (s : State) : Host.Outcome State Fault Refusal :=
  .next (s.unlessReset fun s => if s.syncDue then s.clutchStep.settled else s)

/-! ### Draft capture (R111, R112) -/

/-- REF_GATE_END (R111). -/
def execRefGateEnd (edges : List Nat) (s : State) : Host.Outcome State Fault Refusal :=
  .next (s.unlessReset (State.gateEnded edges))

/-- REF_OVERRANGE (R111). -/
def execRefOverrange (s : State) : Host.Outcome State Fault Refusal := .next (s.unlessReset State.refOverranged)

/-- SENSOR_MEASUREMENT_END (R112). -/
def execSensorMeasurementEnd (edges : List Nat) (s : State) : Host.Outcome State Fault Refusal :=
  .next (s.unlessReset (State.sensorDone edges))

/-- SENSOR_STALL (R112). -/
def execSensorStall (s : State) : Host.Outcome State Fault Refusal := .next (s.unlessReset State.sensorStalled)

/-- FIRST_EDGE (R112). -/
def execFirstEdge (s : State) : Host.Outcome State Fault Refusal := .next (s.unlessReset State.firstEdgeSeen)

/-! ### Hitch and trailer (R121, R147, R151, R154) -/

/-- HITCH_CONTROL_STEP (R121). -/
def execHitchControlStep (s : State) : Host.Outcome State Fault Refusal := .next (s.unlessReset State.controlStep)

def trailerValveData (t : Trailer) : List Byte := bytes2 t.command ++ [byte1 t.source.code]

/-- One brake step: demands, the fall of the command, the source, the frame, the line check (R151). -/
def State.brakeStepTaken (s : State) : State :=
  let s := s.expire s.trailer.timer
  let s := s.holdIfLatched
  let c := steppedCommand s.trailer.command s.demand s.trailerT.rRel
  let s : State := { s with trailer := { s.trailer with
    command := c, source := s.demandSource, timer := s.nextPeriod s.trailer.timer Config.brakeStepMs } }
  (s.writeMail .trailerValve (trailerValveData s.trailer)).lineCheckEval

/-- BRAKE_STEP (R151). -/
def execBrakeStep (s : State) : Host.Outcome State Fault Refusal := .next (s.unlessReset State.brakeStepTaken)

/-- The stretch tail ends: an evaluation (R147). -/
def State.tailEnded (s : State) : State :=
  let s := s.expire s.trailer.tail
  ({ s with trailer := { s.trailer with tail := none } } : State).trailerEvaluate

/-- STRETCH_TAIL_EXPIRY (R147). -/
def execStretchTailExpiry (s : State) : Host.Outcome State Fault Refusal :=
  .next (s.unlessReset fun s => if running s.trailer.tail then s.tailEnded else s)

/-- The line check timer's 300 ms pass: TRAILER_LINE (R154). -/
def State.lineFailed (s : State) : State :=
  let s := s.expire s.trailer.lineCheck
  ({ s with trailer := { s.trailer with lineCheck := none, lineFault := true } } : State).raise .trailerLine 0

/-- LINE_CHECK_EXPIRY (R154). -/
def execLineCheckExpiry (s : State) : Host.Outcome State Fault Refusal :=
  .next (s.unlessReset fun s => if running s.trailer.lineCheck then s.lineFailed else s)

/-! ### Emission (R165, R180) -/

def statusDriveData (s : State) : List Byte :=
  [byte1 s.mode.op.code, byte1 (if s.supervisor.tripped then 1 else 0), byte1 (gearCode s.gear.current),
    byte1 (gearCode s.gear.target), byte1 s.fac.state.code, byte1 s.hitch.state.code, byte1 s.faults.entries.length,
    byte1 (statusFlags (headlandFlag s.hitch.memory) s.faults.overflow s.gear.flag)]

def statusMotionData (s : State) : List Byte :=
  let m := s.motion.record
  bytes2 m.vg ++ bytes2 m.slip ++ bytes2 s.draft.record.dTotal ++ [byte1 m.source.code, byte1 s.mode.cause.code]

/-- The reporting position taken at an expiry: 0 when it is at or beyond the number of entries (R180). -/
def Faults.reported (f : Faults) : Nat := if f.entries.length ≤ f.position then 0 else f.position

def faultReportData (f : Faults) : List Byte :=
  match f.entries[f.reported]? with
  | none => List.replicate 8 0
  | some e =>
    [byte1 f.entries.length, byte1 f.reported, byte1 e.kind.code, byte1 e.index, byte1 (if e.stored then 1 else 0),
      byte1 e.count] ++ bytes2 e.age

/-- The reporting position after an expiry, 0 to 15 (R180). -/
def Faults.nextPosition (f : Faults) : Nat := if f.entries = [] then 0 else (f.reported + 1) % maxEntries

/-- The three periodic frames are written together (R165). -/
def State.emit (s : State) : State :=
  let s := s.expire s.emission
  let s : State := { s with emission := s.nextPeriod s.emission Config.emissionMs }
  let s := (s.writeMail .statusDrive (statusDriveData s)).writeMail .statusMotion (statusMotionData s)
  let s := s.writeMail .faultReport (faultReportData s.faults)
  { s with faults := { s.faults with position := s.faults.nextPosition } }

/-- EMISSION_TIMER (R165). -/
def execEmissionTimer (s : State) : Host.Outcome State Fault Refusal := .next (s.unlessReset State.emit)

end Sys2Proof.Machine
end

