-- ==== Sys2Proof/Machine/Dispatch.lean ====
section
/-! DEFINITION. One arm per command: what each does to everything but the queue. -/

namespace Sys2Proof.Machine

def exec (i : Instr) (s : State) : Host.Outcome State Fault Refusal :=
  match i with
  | .powerOnReset => Sys2Proof.Machine.execPowerOnReset s
  | .pinReset => Sys2Proof.Machine.execPinReset s
  | .resetEnd => Sys2Proof.Machine.execResetEnd s
  | .restartBegin => Sys2Proof.Machine.execRestartBegin s
  | .signalFrame time link early frame => Sys2Proof.Machine.execSignalFrame time link early frame s
  | .operatorCommand time link early frame => Sys2Proof.Machine.execOperatorCommand time link early frame s
  | .unmatchedFrame time link early frame => Sys2Proof.Machine.execUnmatchedFrame time link early frame s
  | .otherFrameReceived link => Sys2Proof.Machine.execOtherFrameReceived link s
  | .frameRxError link => Sys2Proof.Machine.execFrameRxError link s
  | .statusQuery time code req => Sys2Proof.Machine.execStatusQuery time code req s
  | .enterSetup time req => Sys2Proof.Machine.execEnterSetup time req s
  | .leaveSetup time req => Sys2Proof.Machine.execLeaveSetup time req s
  | .selectTable time req => Sys2Proof.Machine.execSelectTable time req s
  | .writeWords time req => Sys2Proof.Machine.execWriteWords time req s
  | .readWords time req => Sys2Proof.Machine.execReadWords time req s
  | .commitTable time req => Sys2Proof.Machine.execCommitTable time req s
  | .faultAck time req => Sys2Proof.Machine.execFaultAck time req s
  | .captureZero time req => Sys2Proof.Machine.execCaptureZero time req s
  | .restart time req => Sys2Proof.Machine.execRestart time req s
  | .transmitOffer link => Sys2Proof.Machine.execTransmitOffer link s
  | .txSuccess link => Sys2Proof.Machine.execTxSuccess link s
  | .txError link => Sys2Proof.Machine.execTxError link s
  | .arbitrationLost link => Sys2Proof.Machine.execArbitrationLost link s
  | .busOffRecovery link => Sys2Proof.Machine.execBusOffRecovery link s
  | .linkSuspectTimeout link => Sys2Proof.Machine.execLinkSuspectTimeout link s
  | .linkFailedTimeout link => Sys2Proof.Machine.execLinkFailedTimeout link s
  | .passageDropTimeout link => Sys2Proof.Machine.execPassageDropTimeout link s
  | .slotTimeout slot => Sys2Proof.Machine.execSlotTimeout slot s
  | .slotHoldExpiry slot => Sys2Proof.Machine.execSlotHoldExpiry slot s
  | .standstillTimerExpiry => Sys2Proof.Machine.execStandstillTimerExpiry s
  | .shuttlePendingExpiry => Sys2Proof.Machine.execShuttlePendingExpiry s
  | .holdOffExpiry => Sys2Proof.Machine.execHoldOffExpiry s
  | .deferralTimerExpiry => Sys2Proof.Machine.execDeferralTimerExpiry s
  | .clutchStep => Sys2Proof.Machine.execClutchStep s
  | .fillWaitTimeout => Sys2Proof.Machine.execFillWaitTimeout s
  | .syncTimeout => Sys2Proof.Machine.execSyncTimeout s
  | .facPulseEnd => Sys2Proof.Machine.execFacPulseEnd s
  | .facFillEnd => Sys2Proof.Machine.execFacFillEnd s
  | .dwellExpiry => Sys2Proof.Machine.execDwellExpiry s
  | .brakeHoldExpiry => Sys2Proof.Machine.execBrakeHoldExpiry s
  | .releaseCheckExpiry => Sys2Proof.Machine.execReleaseCheckExpiry s
  | .refGateEnd edges => Sys2Proof.Machine.execRefGateEnd edges s
  | .refOverrange => Sys2Proof.Machine.execRefOverrange s
  | .sensorMeasurementEnd edges => Sys2Proof.Machine.execSensorMeasurementEnd edges s
  | .sensorStall => Sys2Proof.Machine.execSensorStall s
  | .hitchControlStep => Sys2Proof.Machine.execHitchControlStep s
  | .brakeStep => Sys2Proof.Machine.execBrakeStep s
  | .stretchTailExpiry => Sys2Proof.Machine.execStretchTailExpiry s
  | .lineCheckExpiry => Sys2Proof.Machine.execLineCheckExpiry s
  | .emissionTimer => Sys2Proof.Machine.execEmissionTimer s
  | .busOffTimerExpiry => Sys2Proof.Machine.execBusOffTimerExpiry s
  | .runTimerExpiry => Sys2Proof.Machine.execRunTimerExpiry s
  | .lateTimerExpiry => Sys2Proof.Machine.execLateTimerExpiry s
  | .faultAgeTick kind index => Sys2Proof.Machine.execFaultAgeTick kind index s
  | .firstEdge => Sys2Proof.Machine.execFirstEdge s

end Sys2Proof.Machine
end

