-- ==== Sys2Proof/Machine/Step.lean ====
section
/-! DEFINITION. One step: the command at the front of the queue, or a tick of the time base when none waits. -/

namespace Sys2Proof.Machine

/-- With no command waiting the block idles for one count of the time base: no event occurs, and the time counter of the
Draft Capture Unit counts with it unless a reset is in progress (log 2). -/
def State.tick (s : State) : State :=
  if s.resetting.isSome then { s with now := s.now + 1 } else s.atTime (s.now + 1)

/-- Take the command at the front of the queue and run it on the state with the queue's rest. -/
def step (s : State) : Host.Outcome State Fault Refusal :=
  match s.pending with
  | [] => .next s.tick
  | c :: rest => exec c { s with pending := rest }

/-- The state with the command that a word spells put at the front of its queue; no row gives bits, so no word
spells one. -/
def State.withFetchWord (s : State) (nbits w : Nat) : State :=
  match decodeTableWord nbits w with
  | some c => { s with pending := c :: s.pending }
  | none => s

end Sys2Proof.Machine
end

