-- ==== Sys2Proof/Safety.lean ====
section
/-! DEFINITION. What holds of every state that a run from reset can reach, block by block. A statement that would
fail only in other states takes `State.Ok` as a premise. At the end, what it is to take events in any order. -/

namespace Sys2Proof.Machine

/-- Each loaded content has the size of its table (R182). -/
def Tables.Sized (ts : Tables) : Prop := ∀ id : TableId, (ts.get id).loaded.length = id.size

/-- No two entries of the same kind and index. -/
def Distinct (es : List FaultEntry) : Prop := es.Pairwise fun a b => ¬(a.kind = b.kind ∧ a.index = b.index)

/-- The Fault List: at most 16 entries, never two of the same kind and index, the fields in their ranges (R177). -/
structure Faults.Ok (f : Faults) : Prop where
  size : f.entries.length ≤ maxEntries
  distinct : Distinct f.entries
  counts : ∀ e ∈ f.entries, 1 ≤ e.count ∧ e.count ≤ 255 ∧ e.age ≤ 65535
  position : f.position < maxEntries

/-- The Fault List moves on from `f` by raises, and by reports that conditions in `gone` are gone (R177). -/
inductive Faults.Moves (gone : FaultKind → Nat → Prop) (f : Faults) : Faults → Prop
  | start : Moves gone f f
  | raised {g : Faults} (h : Moves gone f g) (k : FaultKind) (i : Nat) (x : Timer) : Moves gone f (g.raised k i x)
  | cleared {g : Faults} (h : Moves gone f g) {k : FaultKind} {i : Nat} (hk : gone k i) : Moves gone f (g.cleared k i)

/-- From `f` to `g` any condition but (`k`, `i`) may be reported gone. -/
def Faults.Holds (f : Faults) (k : FaultKind) (i : Nat) (g : Faults) : Prop :=
  f.Moves (fun k' i' => ¬(k' = k ∧ i' = i)) g

/-- From `f` to `g` the fault is raised, and its condition is not reported gone after that (R177, R178). -/
def Faults.Raises (f : Faults) (k : FaultKind) (i : Nat) (g : Faults) : Prop :=
  ∃ m x, f.Moves (fun _ _ => True) m ∧ (m.raised k i x).Holds k i g

/-- A Link Controller: counts, the error state that follows from them, and the queue (R157, R158, R162). -/
structure LinkCtl.Ok (c : LinkCtl) : Prop where
  tx : c.txCount ≤ 255
  rx : c.rxCount ≤ 255
  error : c.error ≠ .busOff → c.error = errorOf c.txCount c.rxCount
  queue : c.queue.length ≤ queueSize

/-- The numeric fields of the Operator Request Record (section 1.4). -/
structure OperatorRecord.Ok (r : OperatorRecord) : Prop where
  dial : r.dial ≤ 250
  mix : r.mix ≤ 100
  drop : r.drop ≤ 100
  slipLimit : r.slipLimit ≤ 50

/-- A value in ‰ between −1000 and 1000. -/
def inPermille (v : Int) : Prop := -1000 ≤ v ∧ v ≤ 1000

/-- Slip and filtered slip (R22), and no slip while it is not valid (R25 to R27). -/
structure MotionRecord.Ok (m : MotionRecord) : Prop where
  slip : inPermille m.slip
  slipF : inPermille m.slipF
  invalid : m.slipValid = false → m.slip = 0 ∧ m.slipF = 0

/-- The runs of a channel (R109). -/
structure ChannelHealth.Ok (h : ChannelHealth) : Prop where
  invalidRun : h.invalidRun ≤ 3
  validRun : h.validRun ≤ 10

/-- The Draft Capture Unit's channels. -/
structure Draft.Ok (d : Draft) : Prop where
  chRef : d.chRef.Ok
  chL : d.chL.Ok
  chR : d.chR.Ok

/-- The counter stands at 0 to 4 (R167), and the run timer runs in RUN alone (R172). -/
structure Mode.Ok (m : Mode) : Prop where
  stops : m.stops ≤ 4
  runTimer : m.runTimer ≠ none → m.op = .run

/-- The ranges of the Command Supervisor (R174). -/
structure Supervisor.Ok (v : Supervisor) : Prop where
  errors : v.errors ≤ 255
  goodRun : v.goodRun ≤ 255

/-- A shuttle pending record stands exactly while the flag is PENDING (R52). -/
def Gear.Ok (g : Gear) : Prop := g.shuttle.isSome = true ↔ g.flag = .pending

/-- Correcting raise is reported in CONTROL alone (R137), a restore dial is held in CONTROL and LOWERING alone (R126),
and the override is set exactly while the Headland Memory is full (R100, R139, R140). -/
structure Hitch.Ok (h : Hitch) : Prop where
  correcting : h.correcting = true → h.state = .control
  restore : h.restore ≠ none → h.state.keepsRestore = true
  override : h.override = h.memory.isSome

/-- The release check runs in RELEASED alone (R107), and a release fill is timed in RELEASE_FILL alone (R104). -/
structure Fac.Ok (f : Fac) : Prop where
  check : f.check ≠ none ∨ f.noRelease = true → f.state = .released
  fill : f.fillTimer ≠ none ∨ f.pulseTimer ≠ none → f.state = .releaseFill

/-- The front axle request waits exactly in RELEASE_WAIT, and the FAC holds one slot in RELEASE_FILL and none in any
other state (R86, R87). -/
structure FillOk (a : Arbiter) (st : FacState) : Prop where
  wait : a.facWait = true ↔ st = .releaseWait
  slot : a.count .fac = if st = .releaseFill then 1 else 0

/-- The invariant of the HC-82. -/
structure State.Ok (s : State) : Prop where
  tables : s.tables.Sized
  faults : s.faults.Ok
  tLink : s.tLink.Ok
  vLink : s.vLink.Ok
  record : s.intake.record.Ok
  motion : s.motion.record.Ok
  draft : s.draft.Ok
  mode : s.mode.Ok
  supervisor : s.supervisor.Ok
  gear : s.gear.Ok
  hitch : s.hitch.Ok
  memory : s.hitch.memory ≠ none → s.mode.op = .run
  fac : s.fac.Ok
  fill : FillOk s.arbiter s.fac.state

/-! ### Events in any order (R94, R108; log 5) -/

/-- Some order of the events that wait, and of those that they bring, leads from `s` to `t` with at most `fuel` of them
taken; of one kind the first is taken (log 7). -/
inductive Ordered : Nat → State → State → Prop
  | done {fuel : Nat} {s : State} (h : s.notices = []) : Ordered fuel s s
  | out (s : State) : Ordered 0 s s
  | take {fuel : Nat} {s t : State} {before after : List Notice} {n : Notice} (h : s.notices = before ++ n :: after)
      (first : ∀ m ∈ before, m.kind ≠ n.kind)
      (rest : Ordered fuel (({ s with notices := before ++ after } : State).takeNotice n) t) : Ordered (fuel + 1) s t

/-- `t` is what the events lead to when they may be taken in any order: where all orders lead to one state it is that
state; else every order has a number `k` below one `n`, and the free value modulo `n` picks among them. -/
def AnyOrder (s t : State) : Prop :=
  let reaches := Ordered Config.settleFuel s
  let alike := ∀ u v, reaches u → reaches v → u = v
  (alike → reaches t) ∧
  (¬ alike → ∃ n, 0 < n ∧ (∃ u, reaches u ∧ t = { u with free := s.free + 1 }) ∧
    ∀ u, reaches u → ∃ k, k < n ∧ (Config.freeOrder s.free % n = k → t = { u with free := s.free + 1 }))

end Sys2Proof.Machine
end

