-- ==== Sys2Proof/WellFormed.lean ====
section
/-! DEFINITION. Which commands are well formed: the operands describe an event that can occur on the pins
and links. The machine takes every command; a frame is completed or cut to its DLC when it is taken. -/

namespace Sys2Proof

/-- A frame brings as many data bytes as its DLC says, a code above 8 counting as 8 (R156). -/
def RxFrame.wf (f : RxFrame) : Bool := f.bytes.length == min 8 f.dlcCode.val

/-- A request frame brings the code byte and then as many bytes as its DLC says; a DLC of 0 brings none. -/
def ReqFrame.wf (r : ReqFrame) : Bool := r.rest.length == min 8 r.dlcCode.val - 1

/-- The request codes of R181. -/
def requestCodes : List Nat := [0x01, 0x02, 0x03, 0x10, 0x11, 0x12, 0x13, 0x20, 0x30, 0x3F]

/-- The codes a STATUS_QUERY row may carry: its own, or one that no request has (answered MALFORMED, R181
case 2; log 16). -/
def statusCodeWf (code : Byte) : Bool := code.toNat == 0x01 || !requestCodes.contains code.toNat

/-- A T-link frame with identifier 0x7B0 is a management request and comes as one of those rows (R2). -/
def notRequest (link : Link) (f : RxFrame) : Bool := !(link == Link.t && f.ident.toNat == 0x7B0)

/-- The edges of one measurement come in time order, and the time counter stops at 65535 (R109, R112). -/
def edgesWf : List Nat → Bool
  | [] => true
  | [t] => decide (t ≤ 65535)
  | t :: u :: ts => decide (t ≤ u) && edgesWf (u :: ts)

/-- The checks on a command's operands. -/
def Instr.wf : Instr → Bool
  | .powerOnReset | .pinReset | .resetEnd | .restartBegin => true
  | .signalFrame _ l _ f => f.wf && notRequest l f
  | .operatorCommand _ l _ f => f.wf && notRequest l f
  | .unmatchedFrame _ l _ f => f.wf && notRequest l f
  | .otherFrameReceived _ | .frameRxError _ => true
  | .statusQuery _ c r => r.wf && statusCodeWf c
  | .enterSetup _ r | .leaveSetup _ r | .selectTable _ r | .writeWords _ r | .readWords _ r
  | .commitTable _ r | .faultAck _ r | .captureZero _ r | .restart _ r => r.wf
  | .transmitOffer _ | .txSuccess _ | .txError _ | .arbitrationLost _ | .busOffRecovery _ => true
  | .linkSuspectTimeout _ | .linkFailedTimeout _ | .passageDropTimeout _ => true
  | .slotTimeout _ | .slotHoldExpiry _ => true
  | .standstillTimerExpiry | .shuttlePendingExpiry | .holdOffExpiry | .deferralTimerExpiry => true
  | .clutchStep | .fillWaitTimeout | .syncTimeout => true
  | .facPulseEnd | .facFillEnd | .dwellExpiry | .brakeHoldExpiry | .releaseCheckExpiry => true
  -- at the gate end the edge counter stands below 4095 (R111)
  | .refGateEnd es => edgesWf es && decide (es.length < 4095)
  | .sensorMeasurementEnd es => edgesWf es && !es.isEmpty
  | .refOverrange | .sensorStall | .firstEdge => true
  | .hitchControlStep | .brakeStep | .stretchTailExpiry | .lineCheckExpiry | .emissionTimer => true
  | .busOffTimerExpiry | .runTimerExpiry | .lateTimerExpiry => true
  | .faultAgeTick _ _ => true

end Sys2Proof
end

