-- ==== Sys2Proof/Certificates/Slice0/Obligations.lean ====
section
/-! DEFINITION. The statements for the provers, and the words they are made with. -/

namespace Sys2Proof.Machine

/-! ### Words of the statements -/

/-- No reset is in progress, and no announcement of an earlier command is left (log 7). -/
def State.Ready (s : State) : Prop := s.resetting = none ∧ s.notices = []

/-- No timer of the part runs, and no frame of the part is on a bus (R173). -/
structure State.Stopped (s : State) : Prop where
  slots : ∀ i, (s.slot i).timer = none
  standstill : s.motion.timer = none
  shuttle : ∀ x, s.gear.shuttle = some x → x.timer = none
  holdOff : s.gear.holdOff = none
  deferral : ∀ t, s.gear.deferral ≠ .running t
  clutchStep : s.shift.timer = none
  pulse : s.fac.pulseTimer = none
  fill : s.fac.fillTimer = none
  dwell : s.fac.dwell = none
  brakeHold : s.fac.brakeHold = none
  check : s.fac.check = none
  controlStep : s.hitch.timer = none
  tail : s.trailer.tail = none
  lineCheck : s.trailer.lineCheck = none
  brakeStep : s.trailer.timer = none
  silence : ∀ l, (s.link l).silenceStart = none
  drop : ∀ l, (s.link l).dropTimer = none
  offer : ∀ l, (s.link l).offer = none
  emission : s.emission = none
  busOff : s.mode.busOffTimer = none
  run : s.mode.runTimer = none
  late : s.supervisor.late = none
  age : ∀ e ∈ s.faults.entries, e.timer = none
  restart : s.mgmt.restart = none

/-- A management request of at least `m` bytes reaches case 5 of R181: no reset is in progress, the T-link receives, no
zero capture is in flight and no restart is pending. -/
def State.Takes (s : State) (r : ReqFrame) (m : Nat) : Prop :=
  s.Ready ∧ s.tLink.error ≠ .busOff ∧ s.mgmt.capture = none ∧ s.mgmt.restart = none ∧ m ≤ r.dlcCode.val

/-- Byte `k` of a request with code `code`. -/
def reqByte (code : Byte) (r : ReqFrame) (k : Nat) : Nat := dataAt (rxData r.dlcCode (code :: r.rest)) k

/-- The reply mailbox holds a reply, pending (R161, R181). -/
def State.Replied (t : State) (code : Nat) (r : Result) (data : List Byte) : Prop :=
  t.mail.reply = ⟨some (replyData code r data), true⟩


/-- A counted frame of the T-link has been taken at `time` (R156, R157, R160). -/
structure HeardOnT (s t : State) (time : Time) : Prop where
  now : t.now = max s.now time
  rxCount : t.tLink.rxCount = s.tLink.rxCount - 1
  txCount : t.tLink.txCount = s.tLink.txCount
  silence : t.tLink.silence = .ok
  silenceStart : t.tLink.silenceStart = some t.now
  resetting : t.resetting = none

/-- The Fault List after a counted frame of the T-link (R160). -/
def State.heardFaults (s : State) : Faults := (s.faults.cleared .linkSuspect 0).cleared .linkFailed 0

/-- Blocks that a refused request, and most accepted ones, do not act on. -/
structure SameControl (s t : State) : Prop where
  intake : t.intake = s.intake
  motion : t.motion = s.motion
  gear : t.gear = s.gear
  shift : t.shift = s.shift
  arbiter : t.arbiter = s.arbiter
  fac : t.fac = s.fac
  draft : t.draft = { s.draft with timeCount := t.draft.timeCount }
  hitch : t.hitch = s.hitch
  trailer : t.trailer = s.trailer
  vLink : t.vLink = s.vLink
  mode : t.mode = s.mode
  supervisor : t.supervisor = s.supervisor
  neut : t.neut = s.neut
  emission : t.emission = s.emission
  queue : t.tLink.queue = s.tLink.queue
  mail : t.mail = { s.mail with reply := t.mail.reply }

/-- A request is answered, and nothing changes but the reply mailbox, what every counted frame changes, and the
responder's own state. -/
structure AnsweredOnly (s t : State) (time : Time) (code : Nat) (r : Result) (data : List Byte) : Prop where
  heard : HeardOnT s t time
  same : SameControl s t
  tables : t.tables = s.tables
  faults : t.faults = s.heardFaults
  reply : t.Replied code r data

/-- An accepted request that acts on other blocks: it is answered, and the records that no such request writes stay. -/
structure AnsweredToo (s t : State) (time : Time) (code : Nat) (data : List Byte) : Prop where
  heard : HeardOnT s t time
  record : t.intake.record = s.intake.record
  draft : t.draft = { s.draft with timeCount := t.draft.timeCount }
  supervisor : t.supervisor = s.supervisor
  vLink : t.vLink = s.vLink
  emission : t.emission = s.emission
  reply : t.Replied code .done data

/-- An entry of kind SIGNAL or OPERATOR_COMMAND with a frame's link and identifier (R2). -/
def Matches (ws : List TWord) (l : Link) (f : Frame) (e : MapEntry) : Prop :=
  e ∈ mapEntries ws ∧ e.kind ≠ .unused ∧ e.link = l ∧ e.ident = f.ident

/-- A frame is matched to an entry of the map in use (R1, R2). -/
def MatchedTo (s : State) (l : Link) (f : Frame) (e : MapEntry) : Prop :=
  ¬(l = .t ∧ f.ident = 0x7B0) ∧ Matches (s.inUse .intakeMap) l f e ∧
    (∀ e', Matches (s.inUse .intakeMap) l f e' → e' = e) ∧ e.minDlc ≤ f.data.length

/-- A frame is unmatched (R2). -/
def Unmatched (s : State) (l : Link) (f : Frame) : Prop :=
  ¬(l = .t ∧ f.ident = 0x7B0) ∧ ∀ e, Matches (s.inUse .intakeMap) l f e → f.data.length < e.minDlc

/-- A frame that stands for an offer on a link: a pending mailbox under its identifier of the Emission Table in use, or
the head of the passage queue (R161 to R163). -/
def Offered (s : State) (l : Link) (src : OfferSource) (f : Frame) : Prop :=
  (∃ id data, src = .mailbox id ∧ id.link = l ∧ s.mail.get id = ⟨some data, true⟩ ∧
      f = ⟨mailboxIdent (s.inUse .emission) id, data⟩) ∨
    (src = .queue ∧ (s.link l).queue.head? = some f)

/-- Stages 1 to 11 of the control law: `u` is what they give (R131 to R136). -/
def Law (t : HitchTable) (dial : Nat) (pos dTotal : Int) (quality : DraftQuality) (mix drop slipLimit : Nat)
    (slipValid : Bool) (slipF : Int) (lowering : Bool) (u : Int) : Prop :=
  ∃ S ePos dSet eDn m e u8 u9 u10 : Int,
    S = dial * 4 ∧ ePos = pos - S ∧
    dSet = ((1000 - S) * t.dSpan).tdiv 1000 ∧
    eDn = max (-1000) (min 1000 (((dSet - dTotal) * 1000).tdiv t.dSpan)) ∧
    m = (if quality = .none ∨ lowering = true then 0 else (mix : Int)) ∧
    e = ((100 - m) * ePos + m * eDn).tdiv 100 ∧
    u8 = (if (e.natAbs : Int) ≤ t.deadBand then 0 else (e * t.kH).tdiv 16) ∧
    u9 = (if 0 < u8 then min u8 (100 + drop * 9) else max u8 (-1000)) ∧
    u10 = (if lowering = false ∧ 0 < slipLimit ∧ slipValid = true ∧ (slipLimit * 10 : Int) < slipF
      then min u9 (max (-1000) (-(((slipF - slipLimit * 10) * t.kS).tdiv 16))) else u9) ∧
    u = (if (t.upper : Int) ≤ pos ∧ u10 < 0 then 0 else u10)

/-- The valve command of a control step: fixed by the hitch state, or that of the law (R120, R121). -/
def ValveCommand (s : State) (u : Int) : Prop :=
  let law := fun lowering => Law s.hitchT (s.hitch.restore.getD s.intake.record.dial) (s.shown hitchPos)
    s.draft.record.dTotal s.draft.record.quality s.intake.record.mix s.intake.record.drop s.intake.record.slipLimit
    s.motion.record.slipValid s.motion.record.slipF lowering u
  match s.hitch.state with
  | .startupLock => u = 0
  | .hold => u = 0
  | .transport => u = 0
  | .raising => u = -1000
  | .control => law false
  | .lowering => law true

/-- The Q of a side whose four conditions hold at the end of a cycle (R116). -/
def Draft.included (d : Draft) (c : Channel) : Option Nat :=
  let q := match c with
    | .l => d.qL
    | .r => d.qR
    | .ref => none
  if d.chRef.failed = false ∧ (d.channel c).failed = false ∧ d.refFailL = false ∧ d.refFailR = false then q else none

/-- The draft value of a side (R115). -/
def DraftValue (q0 gain q : Nat) (v : Int) : Prop :=
  v = max (-2000) (min 2000 ((((q0 : Int) - q) * gain).tdiv 256))

/-- The Draft Record of the included sides (R116). -/
def RecordOf (t : HitchTable) (l r : Option Nat) (x : DraftRecord) : Prop :=
  match l, r with
  | some ql, some qr =>
    DraftValue t.q0L t.gainL ql x.dL ∧ DraftValue t.q0R t.gainR qr x.dR ∧
      x.dTotal = max (-4000) (min 4000 (x.dL + x.dR)) ∧ x.quality = .both
  | some ql, none => DraftValue t.q0L t.gainL ql x.dL ∧ x.dR = 0 ∧ x.dTotal = 2 * x.dL ∧ x.quality = .leftOnly
  | none, some qr => DraftValue t.q0R t.gainR qr x.dR ∧ x.dL = 0 ∧ x.dTotal = 2 * x.dR ∧ x.quality = .rightOnly
  | none, none => x = ⟨0, 0, 0, .none⟩

/-- A measurement begins at `p` (R110): counters 0, and the gate read when it is a REF measurement (R111). -/
structure Begun (t : State) (p : CapturePos) : Prop where
  pos : t.draft.pos = p
  time : t.draft.timeCount = 0
  edges : t.draft.edgeCount = 0
  counting : t.draft.counting = false
  gate : p = .refLeft ∨ p = .refRight → t.draft.gate = t.hitchT.gate

/-- The edge counter reaches `stop` at the edge on which the time counter shows `x`, no edge before it beyond `limit`
(R111, R112). -/
def Draft.CountsTo (d : Draft) (edges : List Nat) (limit stop x : Nat) : Prop :=
  ∃ taken rest, edges = taken ++ x :: rest ∧ (∀ y ∈ taken, y ≤ limit) ∧ x ≤ limit ∧ d.edgeCount + taken.length + 1 = stop

/-- The edge counter stands at `n`, below `stop`, when the time counter reaches `limit` (R111, R112). -/
def Draft.CountsWithin (d : Draft) (edges : List Nat) (limit stop n : Nat) : Prop :=
  ∃ taken rest, edges = taken ++ rest ∧ (∀ y ∈ taken, y ≤ limit) ∧ (∀ y, rest.head? = some y → limit < y) ∧
    d.edgeCount + taken.length = n ∧ n < stop

/-- A command with which a REF measurement fails, the time counter then showing `x` (R111). -/
def RefFails (c : Instr) (d : Draft) (x : Nat) : Prop :=
  (c = .refOverrange ∧ d.edgeCount < 4095 ∧ d.timeCount ≤ d.gate ∧ x = d.timeCount) ∨
    (∃ edges, c = .refGateEnd edges ∧ d.CountsTo edges d.gate 4095 x) ∨
    (∃ edges n, c = .refGateEnd edges ∧ d.CountsWithin edges d.gate 4095 n ∧ n < 16 ∧ x = d.gate)

/-- A command with which a sensor measurement ends stalled (R112). -/
def SensorStalls (c : Instr) (d : Draft) : Prop :=
  c = .sensorStall ∨ ∃ edges e n, c = .sensorMeasurementEnd edges ∧ d.counting = true ∧ d.eRef = some e ∧
    d.CountsWithin edges 65535 e n

/-- A command with which a sensor measurement ends valid with Q (R112). -/
def SensorCounts (c : Instr) (d : Draft) (q : Nat) : Prop :=
  ∃ edges e, c = .sensorMeasurementEnd edges ∧ d.counting = true ∧ d.eRef = some e ∧ d.CountsTo edges 65535 e q ∧ 1 ≤ q

/-- A command that ends a cycle, with the state of the draft unit's results at that end (R110, R113). -/
def CycleEnds (c : Instr) (s : State) (d : Draft) : Prop :=
  (∃ q, SensorCounts c s.draft q ∧ s.draft.pos = .right ∧
      d = { s.draft with qR := some q, chR := s.draft.chR.after true }) ∨
    (SensorStalls c s.draft ∧ s.draft.pos = .right ∧
      d = { s.draft with qR := none, chR := s.draft.chR.after false }) ∨
    ((∃ x, RefFails c s.draft x) ∧ s.draft.pos = .refRight ∧
      d = { s.draft with qR := none, refFailR := true, chRef := s.draft.chRef.after false })

/-- The Fault List after a result of a channel: a channel that becomes FAILED raises DRAFT_CHANNEL, one that becomes OK
marks it gone (R114). -/
def Faults.afterResult (f : Faults) (h : ChannelHealth) (valid : Bool) (index : Nat) (now : Time) : Faults :=
  if h.failed = false ∧ (h.after valid).failed = true
    then f.raised .draftChannel index (some (now + 1000 * Config.msTicks))
  else if h.failed = true ∧ (h.after valid).failed = false then f.cleared .draftChannel index
  else f

/-! ### Words of the motion updates (R8, R23, R28, R31, R33 to R35) -/

/-- Coupled braking starts when both brakes show P_couple or more, and ends when one falls below P_couple × 3 / 4 (R33). -/
def CoupledLaw : Prop :=
  ∀ s : State,
    let p := s.trailerT.pCouple
    ∃ c : Bool, s.evalCoupled = { s with motion := { s.motion with record := { s.motion.record with coupled := c } } } ∧
      (s.motion.record.coupled = false → (c = true ↔ (p : Int) ≤ s.shown brakeL ∧ (p : Int) ≤ s.shown brakeR)) ∧
      (s.motion.record.coupled = true →
        (c = false ↔ s.shown brakeL < (p * 3 / 4 : Nat) ∨ s.shown brakeR < (p * 3 / 4 : Nat)))

/-- A cause of SAFE_STOP is present (R170). -/
def SafeStopCause (s : State) : Prop :=
  s.vLink.silence = .failed ∨ s.mode.busOffCause = true ∨
    ((s.slot brakeL).state = .substituted ∧ (s.slot brakeR).state = .substituted)

/-- What the events of a command lead to: they may be taken in any order (R94, log 5). -/
def SettledLaw : Prop := ∀ s : State, AnyOrder s s.settled

/-- What an update of the Motion Record tells, and to whom. The post-braking hold starts and stops on it and the trailer
brake is evaluated; the selector and the Shift Engine act on the start of coupled braking and make a decision, the Fill
Arbiter acts on that start, the front axle evaluates where a field changed, and at a change of standstill comes the test of
R171, each as an event of its own (R28, R35, R93, R102; logs 5 and 6). -/
def MotionUpdateLaw : Prop :=
  (∀ a b : MotionRecord,
    let n := motionNews a b
    (n.changed = true ↔ a ≠ b) ∧ (n.standstillChanged = true ↔ a.standstill ≠ b.standstill) ∧
    (n.brakeStart = true ↔ a.coupled = false ∧ b.coupled = true) ∧
    (n.brakeEnd = true ↔ a.coupled = true ∧ b.coupled = false)) ∧
  ∀ (s : State) (n : MotionNews),
    let hold : Timer := if n.brakeStart = true then none
      else if n.brakeEnd = true
        then (if s.axle.brakeHoldMs = 0 then none else some (s.now + s.axle.brakeHoldMs * Config.msTicks))
      else s.fac.brakeHold
    let a := ({ s with fac := { s.fac with brakeHold := hold } } : State).trailerEvaluate
    let exits := s.mode.op = .safeStop ∧ s.motion.record.standstill = true ∧ s.intake.record.direction = .n ∧
      ¬ SafeStopCause s
    s.announceMotion n = { a with notices := a.notices ++ (.gear n :: ((if n.brakeStart = true then [.brake] else []) ++
      (if n.changed = true then [.axle] else []) ++ if n.standstillChanged = true then [.exit] else [])) } ∧
    s.takeNotice (.gear n) = (if n.brakeStart = true then s.gearBrakeStart else s).gearDecide true ∧
    s.takeNotice .brake = s.arbiterBrakeStart ∧ s.takeNotice .axle = s.facEvaluate ∧
    (exits → s.takeNotice .exit = s.setOp .run) ∧ (¬ exits → s.takeNotice .exit = s)

/-- What an announcement of slots brings. The release check, the hitch, the trailer brake and the line check take it at
once. As events of their own: the Motion Estimator makes one recomputation, full at a valid update of WHEEL_REAR and else
a refresh at a change of a wheel or radar slot, and the evaluations of standstill and coupled braking with it as one update;
the Fill Arbiter decides at SUPPLY_PRESS, the front axle evaluates at STEER, and a state change of a slot that R170 names
brings a cause evaluation (R8, R23, R28, R31, R34, R88, R97; logs 5 and 6). -/
def SlotNewsLaw : Prop :=
  ∀ (n : SlotNews) (s : State),
    let told := fun i : Fin 16 => i ∈ n.valid ∨ i ∈ n.subst ∨ i ∈ n.changed
    let full := wheelRear ∈ n.valid
    let again := full ∨ ∃ i ∈ [wheelRear, wheelFront, radar], i ∈ n.changed ∨ i ∈ n.subst
    let m1 := if again then s.recompute (decide full) else s
    let m2 := if again ∨ told outSpeed then m1.evalStandstill else m1
    let m3 := if told brakeL ∨ told brakeR then m2.evalCoupled else m2
    let m4 := (s.recompute false).evalStandstill
    s.takeNotice (.motion n) = (if again ∨ s.motion.record ≠ m3.motion.record
      then m3.announceMotion (motionNews s.motion.record m3.motion.record) else m3) ∧
    s.takeNotice .refresh = m4.announceMotion (motionNews s.motion.record m4.motion.record) ∧
    s.takeNotice .supply = s.decideFill ∧
    let d := if told facPress then s.facCheckEval else s
    let e := if told hitchPos then d.hitchPosNews (decide (hitchPos ∈ n.valid)) else d
    let f := if ∃ i ∈ [brakeL, brakeR, park, throttle, trailerCoupled], told i then e.trailerEvaluate else e
    let g := if told trailerLine then f.lineCheckEval else f
    s.announceSlots n = { g with notices := g.notices ++ (.motion n :: ((if told supplyPress then [.supply] else []) ++
      (if told steer then [.axle] else []) ++
      if ∃ i ∈ [engSpeed, outSpeed, brakeL, brakeR], i ∈ n.changed then [.causes] else [])) }

/-- The blocks that the accepted operator command and the slot updates of a frame reach are as they were. -/
structure State.SameDrive (u s : State) : Prop where
  motion : u.motion = s.motion
  gear : u.gear = s.gear
  shift : u.shift = s.shift
  arbiter : u.arbiter = s.arbiter
  fac : u.fac = s.fac
  hitch : u.hitch = s.hitch
  trailer : u.trailer = s.trailer
  mode : u.mode = s.mode

/-- A counted frame on link `l` announces nothing by itself (R160, R170). -/
def State.Undisturbed (s : State) (l : Link) : Prop :=
  s.notices = [] ∧ (l = .v → s.vLink.silence = .ok ∧ s.vLink.rxGood.error = s.vLink.error)

/-! ### Words of the commit (R20, R38, R53, R63, R96, R130, R143, R164, R174, R185) -/

/-- Checks made one after another, each as the number of things it looks at, what makes one of them fail, and what is
added to the number of the first that fails to give the index `r`. -/
def FirstFailure : List (Nat × (Nat → Prop) × Nat) → Option Nat → Prop
  | [], r => r = none
  | (count, bad, add) :: rest, r =>
    (∀ n, n < count → bad n → (∀ k, k < n → ¬ bad k) → r = some (n + add)) ∧
      ((∀ n, n < count → ¬ bad n) → FirstFailure rest r)

/-- The entry of the loaded Intake Map fails (R20). -/
def MapEntryBad (ws : List TWord) (n : Nat) : Prop :=
  let e := mapEntry ws n
  let feeds := fun (k i : Nat) => ∃ x ∈ (mapEntry ws k).extractions, x.slot.val = i
  kindCode ws n ≠ 0 ∧
    (kindCode ws n = 3 ∨ 1 < linkCode ws n ∨ 0x7FF < e.ident ∨ 8 < e.minDlc ∨ e.timeout = 0 ∨
        3 < byteOf (wordAt ws (4 * n)) 5 ∨ (∃ x ∈ e.extractions, x.mult = 0) ∨
      e.ident = 0x7B0 ∨ e.ident = 0x7B8 ∨
      (∃ x ∈ e.extractions, 8 < x.start + (if x.wide then 2 else 1)) ∨
      (kindCode ws n = 2 ∧ (e.extractions ≠ [] ∨ e.minDlc < 8)) ∨
      (∃ k, k < n ∧ kindCode ws k ≠ 0 ∧ linkCode ws k = linkCode ws n ∧ (mapEntry ws k).ident = e.ident) ∨
      (kindCode ws n = 2 ∧ ∃ k, k < n ∧ kindCode ws k = 2) ∨
      (∃ i k, k < n ∧ kindCode ws k ≠ 0 ∧ feeds k i ∧ feeds n i) ∨ ¬ (e.extractions.map (·.slot)).Nodup)

/-- The position of the loaded Emission Table fails, against the Intake Map in use (R164). -/
def PositionBad (map ws : List TWord) (pos : Nat) : Prop :=
  let link : Nat → Link := fun p => if p < 4 then .v else .t
  let i := emissionIdent ws pos
  0x7FF < i ∨ i = 0x7B0 ∨ i = 0x7B8 ∨ (∃ p, p < pos ∧ link p = link pos ∧ emissionIdent ws p = i) ∨
    ∃ e ∈ mapEntries map, e.forward = true ∧ e.kind ≠ .unused ∧ e.link ≠ link pos ∧ e.ident = i

/-- The checks of the Gear Table in their order (R38). -/
def gearChecks (ws : List TWord) : List (Nat × (Nat → Prop) × Nat) :=
  let h := gearHeader ws
  let e := gearEntry ws
  let dir := fun g : Nat => if g < 12 then 0 else 1
  [(1, fun _ => ¬(h.startF ≤ 11 ∧ 12 ≤ h.startR ∧ h.startR ≤ 19 ∧ 1 ≤ h.k ∧ h.k ≤ 6 ∧ h.kHl ≤ 3 ∧ h.speedLimit ≤ 6000 ∧
      500 ≤ h.pendingMs ∧ h.pendingMs ≤ 5000), 0),
    (20, fun g => 3 < (e g).speed ∨ 2 < (e g).range ∨ 1 < (e g).direction ∨
      (e g).enabled = true ∧ ((e g).ratio = 0 ∨ 4096 < (e g).ratio), 1),
    (20, fun g => (e g).direction ≠ dir g, 1),
    (20, fun g => (e g).enabled = true ∧ ∃ k, k < g ∧ (e k).enabled = true ∧ (e k).speed = (e g).speed ∧
      (e k).range = (e g).range ∧ (e k).direction = (e g).direction, 1),
    (20, fun g => (e g).enabled = true ∧ ∃ k, k < g ∧ dir k = dir g ∧ (e k).enabled = true ∧
      (∀ j, k < j → j < g → (e j).enabled = false) ∧ (e g).ratio ≤ (e k).ratio, 1),
    (1, fun _ => (e h.startF).enabled = false, h.startF + 1),
    (1, fun _ => (e h.startR).enabled = false, h.startR + 1)]

/-- The checks of the Clutch Profile Table in their order (R63). -/
def clutchChecks (ws : List TWord) : List (Nat × (Nat → Prop) × Nat) :=
  let h := clutchHeader ws
  let p := profile ws
  [(1, fun _ => ¬(100 ≤ h.syncMaxMs ∧ h.syncMaxMs ≤ 2000 ∧ 10 ≤ h.syncWindow ∧ h.syncWindow ≤ 200 ∧ h.flare ≤ 1000 ∧
      h.tieUp ≤ 1000 ∧ h.supplyMin ≤ 3000 ∧ 100 ≤ h.fillWaitMs ∧ h.fillWaitMs ≤ 2000), 0),
    (10, fun c => ¬(10 ≤ (p c).tPulse ∧ (p c).tPulse ≤ 300 ∧ (p c).tHold ≤ 300 ∧ -50 ≤ (p c).adapt ∧ (p c).adapt ≤ 50 ∧
        (p c).pHold ≤ (p c).pMax) ∨
      c < 9 ∧ ¬(10 ≤ (p c).rOn ∧ (p c).rOn ≤ 200 ∧ 10 ≤ (p c).rOff ∧ (p c).rOff ≤ 500 ∧ (p c).pRamp0 ≤ (p c).pMax ∧
        (p c).pOffhold ≤ (p c).pMax), 1)]

/-- The checks of the Trailer Table in their order (R143). -/
def trailerChecks (ws : List TWord) : List (Nat × (Nat → Prop) × Nat) :=
  let t := trailerTable ws
  let x := fun i => halfOf (wordAt ws (i + 2)) 0
  let y := fun i => halfOf (wordAt ws (i + 2)) 2
  [(1, fun _ => ¬(100 ≤ t.pCouple ∧ t.pCouple ≤ 5000 ∧ t.pFull ≤ 15000 ∧ t.pStretch ≤ 15000), 0),
    (1, fun _ => ¬(t.vStretch ≤ 6000 ∧ t.tailMs ≤ 2000 ∧ 10 ≤ t.rRel ∧ t.rRel ≤ 2000), 1),
    (1, fun _ => t.pFull < t.pStretch, 0),
    (8, fun i => 20000 < x i ∨ 15000 < y i, 2),
    (1, fun _ => x 0 ≠ 0, 2),
    (7, fun i => x (i + 1) ≤ x i, 3),
    (7, fun i => y (i + 1) < y i, 3),
    (8, fun i => t.pFull < y i, 2)]

/-- The checks of a table's own rule, in their order; `map` is the Intake Map in use (R185). -/
def commitChecks (id : TableId) (map ws : List TWord) : List (Nat × (Nat → Prop) × Nat) :=
  let a := axleTable ws
  let h := hitchTable ws
  let sched := scheduleHeader ws
  let sup := supervisionTable ws
  match id with
  | .intakeMap => [(48, MapEntryBad ws, 0),
      (7, fun i => i ∉ [3, 4] ∧ ∀ n, n < 48 → kindCode ws n = 1 → ∀ x ∈ (mapEntry ws n).extractions, x.slot.val ≠ i, 48)]
  | .slotTable => [(16, fun n => substituteOf ws (Fin.ofNat 16 n) < (slotRange (Fin.ofNat 16 n)).1 ∨
      (slotRange (Fin.ofNat 16 n)).2 < substituteOf ws (Fin.ofNat 16 n), 0)]
  | .emission => [(8, PositionBad map ws, 0)]
  | .gear => gearChecks ws
  | .clutch => clutchChecks ws
  | .shiftSchedule => [(1, fun _ => ¬(500 ≤ sched.holdOffMs ∧ sched.holdOffMs ≤ 5000 ∧ sched.brakeOffset ≤ 1000 ∧
        sched.minThrottle ≤ 1000 ∧ sched.deferMs ≤ 3000), 0),
      (12, fun g => 4000 < scheduleUp ws g ∨ 4000 < scheduleDown ws g ∨ scheduleUp ws g ≤ scheduleDown ws g + 200, 1)]
  | .axle => [(1, fun _ => ¬(a.vOn ≤ 6000 ∧ a.vOff ≤ 6000 ∧ a.aSteer ≤ 600 ∧ a.vOn < a.vOff), 0),
      (1, fun _ => ¬(a.slip4wd ≤ 1000 ∧ 100 ≤ a.dwellMs ∧ a.dwellMs ≤ 10000 ∧ a.brakeHoldMs ≤ 10000), 1)]
  | .hitch => [(1, fun _ => ¬(1000 ≤ h.gate ∧ h.gate ≤ 20000 ∧ 1 ≤ h.q0L ∧ h.q0L ≤ 65534 ∧ 1 ≤ h.q0R ∧ h.q0R ≤ 65534), 0),
      (1, fun _ => ¬(1 ≤ h.gainL ∧ 1 ≤ h.gainR ∧ 100 ≤ h.dSpan ∧ h.dSpan ≤ 4000 ∧ 1 ≤ h.kH ∧ 1 ≤ h.kS), 1),
      (1, fun _ => ¬(h.deadBand ≤ 200 ∧ h.matchWindow ≤ 100 ∧ h.lowerInhibit ≤ 6000 ∧ 500 ≤ h.upper ∧ h.upper ≤ 1000), 2),
      (1, fun _ => ¬(1 ≤ h.correcting ∧ h.correcting ≤ 1000), 3)]
  | .trailer => trailerChecks ws
  | .supervision => [(1, fun _ => ¬(sup.tMinMs ≤ 200 ∧ 20 ≤ sup.tMaxMs ∧ sup.tMaxMs ≤ 1000 ∧ 1 ≤ sup.trip ∧
      sup.trip ≤ 15 ∧ 1 ≤ sup.recovery ∧ sup.tMinMs < sup.tMaxMs), 0)]

/-- The CRC register: each byte into its upper half, then eight shifts to the left, 0x1021 where a 1 falls out; it starts
at 0xFFFF and takes the words in order, byte 0 of each first (R185). -/
def CrcLaw : Prop :=
  (∀ c : BitVec 16, (crcShift c).toNat = (2 * c.toNat % 65536) ^^^ (if 32768 ≤ c.toNat then 0x1021 else 0)) ∧
    (∀ (c : BitVec 16) (b : Byte), crcByte c b = crcShift (crcShift (crcShift (crcShift (crcShift (crcShift (crcShift
      (crcShift (c ^^^ BitVec.ofNat 16 (256 * b.toNat)))))))))) ∧
    crcOf [] = 0xFFFF#16 ∧
    ∀ (ws : List TWord) (w : TWord), crcOf (ws ++ [w]) = ((List.range 6).map fun k => BitVec.ofNat 8 (byteOf w k)).foldl
      crcByte (crcOf ws)

/-! ### Words of the drive, the front axle and the mode -/

/-- R50: what an end report does to the selector. An end with the Gear Table in use changed leaves no current gear (R41, log 13). -/
def EndReportLaw : Prop :=
  ∀ (g : Gear) (o : Order) (r : OrderResult),
    let t := g.afterEnd o r
    let locks := r = .completed ∨ r = .free ∨ r = .forcedLock
    let target := fun x : Option Nat =>
      t = { g with current := t.current, ownTarget := t.ownTarget, preF := t.preF, preR := t.preR } ∧ t.target = x
    (g.clearAtEnd = true → t = { g with current := none, clearAtEnd := false }) ∧
    (g.clearAtEnd = false →
      match o.kind with
      | .swap1 | .swap2 =>
        (locks → t = { g with current := o.toGear }) ∧
        (¬ locks → o.merged ≠ none → t = { g with current := o.fromGear }) ∧
        (¬ locks → o.merged = none → t.current = o.fromGear ∧ target o.fromGear)
      | .free => t = { g with current := if locks then o.toGear else o.fromGear }
      | .engage =>
        (locks → t.dirState = o.dir.state ∧ t.target = g.target ∧ t.current = g.current) ∧ (¬ locks → t = g)
      | .release => t = g
      | .shuttle =>
        (locks → t.dirState = o.dir.state ∧ t.target = g.target ∧ t.current = o.toGear) ∧
        (¬ locks → t = { g with current := o.lastLocked }))

/-- R50, R57, R84: an end of an order: the end report, the target kept under coupled braking, the Last Shift Record, the
hold-off, NEUT, and a decision. -/
def OrderEndLaw : Prop :=
  ∀ (s : State) (o : Order) (r : OrderResult) (change : Int), ∃ v : State,
    s.orderEnd o r change = v.gearDecide false ∧
    v = { s with gear := v.gear, shift := { s.shift with order := none }, mail := v.mail, neut := v.neut,
                 tLink := { s.tLink with offer := v.tLink.offer } } ∧
    (let kept := ({ s with shift := v.shift, gear := s.gear.afterEnd o r } : State).keepTarget;
      v.gear = { kept.gear with
        holdOff := some (s.now + (scheduleHeader (s.inUse .shiftSchedule)).holdOffMs * Config.msTicks) }) ∧
    v.mail = { s.mail with shiftRecord := ⟨some ([byte1 (gearCode o.fromGear), byte1 (gearCode o.toGear),
      byte1 o.kind.code, byte1 r.code] ++ bytes2 o.duration ++ [byte1 (observationFlags o.flare o.tieUp),
      byte1 change]), true⟩ } ∧
    (v.neut = true ↔ s.command 7 = 0 ∧ s.command 8 = 0)

/-- The mode and the conditions demand a release of the front axle (R99). -/
def State.ReleaseDemand (s : State) : Prop :=
  let m := s.motion.record
  let slipping := m.slipValid = true ∧ (s.axle.slip4wd : Int) < m.slipF ∧ m.vg < s.axle.vOff
  match s.intake.record.driveMode with
  | .off => True
  | .on => False
  | .auto => s.hitch.override = true ∨ (s.axle.vOff : Int) < m.vg ∨ ¬ slipping ∧ s.axle.aSteer ≤ (s.shown steer).natAbs

/-- The mode and the conditions demand an engagement of the front axle (R99). -/
def State.EngageDemand (s : State) : Prop :=
  let m := s.motion.record
  let slipping := m.slipValid = true ∧ (s.axle.slip4wd : Int) < m.slipF ∧ m.vg < s.axle.vOff
  match s.intake.record.driveMode with
  | .off => False
  | .on => True
  | .auto => s.hitch.override = false ∧ m.vg ≤ s.axle.vOff ∧
      (slipping ∨ (s.shown steer).natAbs < s.axle.aSteer ∧ m.vg < s.axle.vOn)

/-- A cause of DEGRADED is present (R170). -/
def DegradedCause (s : State) : Prop :=
  s.supervisor.tripped = true ∨ (s.slot engSpeed).state = .substituted ∨ (s.slot outSpeed).state = .substituted

/-- An entry into SAFE_STOP from RUN or DEGRADED, the fourth of them into LATCHED (R172). -/
structure Stops (s t : State) : Prop where
  stops : t.mode.stops = min 4 (s.mode.stops + 1)
  op : t.mode.op = if t.mode.stops = 4 then .latched else .safeStop
  runTimer : t.mode.runTimer = none
  fault : t.mode.op = .latched → s.faults.Raises .safeStopLatched 0 t.faults

/-- A change of the operating state: the run timer, the hitch's and the trailer's part at once (log 6), and the events it
brings: to the selector, to the front axle, and at an entry into RUN a cause evaluation (R42, R43, R122, R167 to R170,
R172). SAFE_STOP_LATCHED is raised at the entry (log 32). -/
def EntryLaw : Prop :=
  ∀ (s : State) (op : OpState),
    let m : Mode := { s.mode with op := op, runTimer := if op = .run then some (s.now + 600000 * Config.msTicks) else none }
    let e := { s with mode := m }
    let h := if op = .run then e.hitchRun else if s.mode.op = .run then e.hitchLeavesRun else e
    s.setOp op = (let u := h.trailerEvaluate;
      { u with notices := s.notices ++ (.entry op :: .axle :: if op = .run then [.causes] else []) }) ∧
    s.takeNotice (.entry op) = (match op with
      | .unloaded => s
      | .setup => s.gearSetup
      | .run => s.gearRun
      | .degraded => s.gearDegraded
      | .safeStop | .latched => s.gearSafeStop) ∧
    s.takeNotice .axle = s.facEvaluate ∧ s.takeNotice .causes = s.causeEval ∧
    (s.enterSafeStop.mode.op = .latched →
      s.enterSafeStop.faults = s.faults.raised .safeStopLatched 0 (some (s.now + 1000 * Config.msTicks)))

/-! ### Words of the Gear Selector and of the end of an order (R18, R19, R37, R40, R44 to R58, R80, R81, R84) -/

/-- The ladders (R37). -/
def LadderLaw : Prop :=
  ∀ (ws : List TWord) (d : Dir),
    (∀ g, g ∈ ladder ws d ↔ (if d = .f then g < 12 else 12 ≤ g ∧ g < 20) ∧ (gearEntry ws g).enabled = true) ∧
    (ladder ws d).Pairwise (· < ·)

/-- The gear min(K, |d|) positions from `a` toward `b` on the ladder of `d`; `b` itself where one of them is not on it
(R46, R47). -/
def MovesTo (s : State) (d : Dir) (a b dest : Nat) : Prop :=
  let l := s.ladderOf d
  let k := (gearHeader s.gearWords).k
  (∀ i j : Nat, l[i]? = some a → l[j]? = some b → l[if i ≤ j then min (i + k) j else max (i - k) j]? = some dest) ∧
    (a ∉ l ∨ b ∉ l → dest = b)

/-- The speed and range clutch of a gear (section 3.1). -/
def clutchesOf (s : State) : Option Nat → List Nat
  | none => []
  | some g => [(gearEntry s.gearWords g).speed, 4 + (gearEntry s.gearWords g).range]

/-- `t` is `s` with a new order in flight: its type, gears and directions, its clutch sets, and where it starts. A request
for fill slots is granted at once where the supply test holds and enough slots are free (R64, R65, R72, R73, R76, R88). -/
def Issued (s t : State) (kind : OrderKind) (a b : Option Nat) (dir origin : Dir) : Prop :=
  t = { s with gear := t.gear, shift := t.shift, arbiter := t.arbiter, fac := t.fac, trailer := t.trailer,
               neut := t.neut, notices := t.notices } ∧
  ∃ o, t.shift = { s.shift with order := some o } ∧ o.kind = kind ∧ o.fromGear = a ∧ o.toGear = b ∧ o.dir = dir ∧
    o.origin = origin ∧ o.duration = 0 ∧ o.count = 0 ∧ o.merged = none ∧ o.freed = false ∧ o.forced = false ∧
    o.ending = false ∧ o.dump = none ∧ o.flare = false ∧ o.tieUp = false ∧ o.lastLocked = a ∧
    (∀ g, b = some g → o.ratioTo = (gearEntry s.gearWords g).ratio) ∧
    o.moveOn = (clutchesOf s b).filter (fun c => !(clutchesOf s a).contains c) ∧
    o.moveOff = (clutchesOf s a).filter (fun c => !(clutchesOf s b).contains c) ∧
    let idle := t.arbiter = s.arbiter
    let asks := let n := o.oncoming.length
      if (s.clutchHdr.supplyMin : Int) ≤ s.shown supplyPress ∧ n ≤ s.arbiter.count .free
      then o.driving = true ∧ o.phase = (if kind = .engage then .fill else .prepare) ∧ t.arbiter.shiftWait = none ∧
        t.arbiter.count .shift = s.arbiter.count .shift + n
      else o.driving = false ∧ o.phase = .waitSupply ∧ t.arbiter = { s.arbiter with shiftWait := some n }
    match kind with
    | .release | .shuttle => o.phase = .dump ∧ o.sub = .dump ∧ idle
    | .engage => o.oncoming = [⟨if dir = .f then 7 else 8, 0⟩] ∧ o.offgoing = [] ∧ asks
    | .swap1 | .swap2 | .free => o.oncoming = o.moveOn.map (⟨·, 0⟩) ∧ o.offgoing = o.moveOff.map (⟨·, 0⟩) ∧
      if o.moveOn = [] then o.phase = .lock ∧ o.driving = false ∧ idle else asks

/-- Cases 5 and 2: a FREE toward the target, when it is not the current gear (R45, R47). -/
def FreeCase (s t : State) : Prop :=
  (s.gear.target = none ∨ s.gear.target = s.gear.current → t = s) ∧
    ∀ b, s.gear.target = some b → s.gear.current ≠ some b →
      t.gear = s.gear ∧ ∃ dest, Issued s t .free s.gear.current (some dest) s.gear.dir s.gear.dir ∧
        (s.gear.current = none → dest = b) ∧ ∀ a, s.gear.current = some a → MovesTo s s.gear.dir a b dest

/-- A swap from `a` toward `b`: SWAP2 when both clutches differ, else SWAP1 (R46). -/
def SwapToward (s t : State) (a b : Nat) : Prop :=
  ∃ dest, MovesTo s s.gear.dir a b dest ∧
    let e := gearEntry s.gearWords
    Issued s t (if (e a).speed ≠ (e dest).speed ∧ (e a).range ≠ (e dest).range then .swap2 else .swap1)
      (some a) (some dest) s.gear.dir s.gear.dir

/-- Cases 4 and 6 with no order in flight (R45, R46, R54 to R56). -/
def EngagedLaw : Prop :=
  ∀ (byMotion : Bool) (s : State), s.shift.order = none →
    let t := s.decideEngaged byMotion
    let g := s.gear
    let h := scheduleHeader (s.inUse .shiftSchedule)
    let l := s.ladderOf .f
    let tested := byMotion = true ∧ g.dirState = .f ∧ s.intake.record.shiftMode = .auto ∧ g.holdOff = none
    (g.target = none ∨ g.current = none → t = s) ∧
    ∀ a b, g.current = some a → g.target = some b →
      (a ≠ b → t.gear = g ∧ SwapToward s t a b) ∧
      (a = b → ¬ tested ∨ a ∉ l → t = s) ∧
      ∀ p, a = b → tested → l[p]? = some a →
        let eng := s.shown engSpeed
        let coupled := s.motion.record.coupled
        let up := p + 1 < l.length ∧ (scheduleUp (s.inUse .shiftSchedule) a : Int) ≤ eng ∧
          (h.minThrottle : Int) ≤ s.shown throttle ∧ coupled = false
        let down := 0 < p ∧
          eng ≤ (scheduleDown (s.inUse .shiftSchedule) a : Int) + (if coupled = true then h.brakeOffset else 0 : Nat)
        let defers := s.hitch.correcting = true ∧ g.deferral ≠ .expired ∧ h.deferMs ≠ 0
        let moves := fun c : Nat => t.gear = { g with deferral := .stopped, ownTarget := some c } ∧
          SwapToward { s with gear := t.gear } t a c
        let timer := fun x : Deferral => t = { s with gear := { g with deferral := x } }
        (up → ∀ c, l[p + 1]? = some c → moves c) ∧
        (¬ up → down → ¬ defers → ∀ c, l[p - 1]? = some c → moves c) ∧
        (¬ up → down → defers → timer
          (if g.deferral = .stopped then .running (some (s.now + h.deferMs * Config.msTicks)) else g.deferral)) ∧
        (¬ up → ¬ down → timer .stopped)

/-- A RELEASE handed to the order in flight (R48, R80, R81). -/
def HandedReleaseLaw : Prop :=
  ∀ (s : State) (o : Order),
    let t := s.releaseOrder o
    let with' := fun n : Order => { s with shift := { s.shift with order := some n } }
    let ended := fun n : Order => n = { o with phase := .dump, count := 0, ending := true, dump := none }
    let engagement := (o.ending = true → t = s) ∧
      (o.ending = false → o.phase = .waitSupply →
        t = ({ s with arbiter := { s.arbiter with shiftWait := none } } : State).decideFill.orderEnd o .aborted 0) ∧
      (o.ending = false → o.phase = .fill → ∃ n, ended n ∧
        t = ({ with' n with arbiter := s.arbiter.giveBack .shift } : State).decideFill) ∧
      (o.ending = false → o.phase ≠ .waitSupply → o.phase ≠ .fill → ∃ n, ended n ∧ t = with' n)
    match o.kind with
    | .swap1 | .swap2 =>
      (o.merged ≠ none ∨ s.gear.dirState = .n → t = s) ∧
      ∀ d : Dir, o.merged = none → s.gear.dirState = d.state →
        t = { with' { o with freed := true, merged := some d } with gear := { s.gear with
          dirState := .n, presel := d, preF := if d = .f then o.toGear else s.gear.preF,
          preR := if d = .r then o.toGear else s.gear.preR,
          deferral := if d = .f then .stopped else s.gear.deferral } }
    | .engage => engagement
    | .release | .free => t = s
    | .shuttle =>
      match o.sub with
      | .dump => t = { with' { o with kind := .release, dir := o.origin } with gear := { s.gear with presel := o.origin } }
      | .free => t = with' { o with kind := .free }
      | .engage => engagement

/-- A decision of the Gear Selector (R45, R47 to R49, R51, R52). In case 2 the target, which becomes pre_X, is kept under
R57 (log 21); an ENGAGE and a RELEASE carry the current gear as their to gear (log 11). -/
def SelectorLaw : Prop :=
  ∀ (byMotion : Bool) (s : State),
    let t := s.gearDecide byMotion
    let g := s.gear
    let q := s.intake.record.direction
    let op := s.mode.op
    (∀ o, s.shift.order = some o →
      let released := q = .n ∨ o.kind = .shuttle ∧ o.sub = .dump ∧ q = o.origin.state
      (op = .run → released → t = s.releaseOrder o) ∧ (op ≠ .run ∨ ¬ released → t = s)) ∧
    (s.shift.order = none →
      (op ≠ .run → op ≠ .setup → t = s) ∧
      (op = .setup → (g.dirState ≠ .n → t = s) ∧ (g.dirState = .n → FreeCase s t)) ∧
      (op = .run →
        (q = .n → g.dirState = .n → FreeCase s t) ∧
        (∀ d : Dir, q = .n → g.dirState = d.state →
          t.gear = { g with dirState := .n, presel := d, preF := if d = .f then g.current else g.preF,
                            preR := if d = .r then g.current else g.preR,
                            deferral := if d = .f then .stopped else g.deferral } ∧
          Issued s t .release g.current g.current d d) ∧
        (∀ x : Dir, q = x.state → g.dirState = .n →
          let u := ({ s with gear := { g with presel := x } } : State).keepTarget
          let dest := if x = .f then u.gear.preF else u.gear.preR
          ((if x = .f then g.preF else g.preR) = none → t = s) ∧
          ((if x = .f then g.preF else g.preR) ≠ none → t.gear = u.gear ∧
            Issued u t (if g.current = dest then .engage else .free) g.current dest x x)) ∧
        (∀ x y : Dir, q = x.state → g.dirState = y.state →
          let dest := if x = .f then g.preF else g.preR
          let slow := s.motion.record.vg ≤ ((gearHeader s.gearWords).speedLimit : Int)
          (x = y ∨ g.flag = .dropped → t = s.decideEngaged byMotion) ∧
          (x ≠ y → g.flag ≠ .dropped → dest ≠ none → slow →
            t.gear = { g with dirState := .n, presel := x, preF := if y = .f then g.current else g.preF,
                              preR := if y = .r then g.current else g.preR, shuttle := none, flag := .none,
                              deferral := if y = .f then .stopped else g.deferral } ∧
            Issued s t .shuttle g.current dest x y) ∧
          (x ≠ y → g.flag ≠ .dropped → dest ≠ none → ¬ slow →
            t = (if g.shuttle ≠ none then s else { s with gear := { g with
              shuttle := some ⟨x, s.now, some (s.now + (gearHeader s.gearWords).pendingMs * Config.msTicks)⟩,
              flag := .pending } } : State).decideEngaged byMotion))))

/-- Where the target stands and how it moves (R40, R44, R57, R58, R78). -/
def TargetLaw : Prop :=
  LadderLaw ∧
  (∀ (g : Gear) (x : Option Nat),
    (g.withTarget x).target = x ∧
    (g.dirState ≠ .n → g.withTarget x = { g with ownTarget := x } ∧ g.target = g.ownTarget) ∧
    (g.dirState = .n → g.presel = .f → g.withTarget x = { g with preF := x } ∧ g.target = g.preF) ∧
    (g.dirState = .n → g.presel = .r → g.withTarget x = { g with preR := x } ∧ g.target = g.preR)) ∧
  ∀ s : State,
    let g := s.gear
    let l := s.targetLadder
    let ref := match s.shift.order with
      | some o => if o.kind = .swap1 ∨ o.kind = .swap2 then o.toGear else g.current
      | none => g.current
    let stops := s.motion.record.coupled = true ∧ ∃ x ∈ l, ref = some x
    l = ladder s.gearWords (match g.dirState with
      | .n => g.presel
      | .f => .f
      | .r => .r) ∧
    -- the move of the target, a change of mind among them
    (∀ x, let t := s.handTarget x
      let u := { s with gear := g.withTarget x }
      let mind := fun o : Order => (o.kind = .swap1 ∨ o.kind = .swap2) ∧ o.merged = none ∧ x = o.fromGear
      (g.target = x → t = s) ∧
      (g.target ≠ x → s.shift.order = none → t = u) ∧
      ∀ o, g.target ≠ x → s.shift.order = some o →
        (¬ mind o ∨ o.phase ≠ .waitSupply ∧ o.phase ≠ .prepare ∧ o.phase ≠ .fill → t = u) ∧
        (mind o → o.phase = .waitSupply →
          t = ({ u with arbiter := { u.arbiter with shiftWait := none } } : State).decideFill.orderEnd o .aborted 0) ∧
        (mind o → o.phase = .prepare ∨ o.phase = .fill →
          t = (let w := u.closeWindow; { w with arbiter := w.arbiter.giveBack .shift } : State).decideFill.orderEnd o
            .aborted 0)) ∧
    -- presses
    (∀ ups downs : Nat, let t := s.pressTarget ups downs
      (s.mode.op ≠ .run ∨ ups = downs ∨ (∀ x ∈ l, g.target ≠ some x) → t = s) ∧
      ∀ (p : Nat) (x y : Nat), s.mode.op = .run → ups ≠ downs → g.target = some x → l[p]? = some x →
        (downs < ups →
          (¬ stops → l[min (p + (ups - downs)) (l.length - 1)]? = some y → t = s.handTarget (some y)) ∧
          (∀ (r z : Nat), s.motion.record.coupled = true → ref = some z → l[r]? = some z →
            l[min (min (p + (ups - downs)) (l.length - 1)) r]? = some y → t = s.handTarget (some y))) ∧
        (ups < downs → l[p - (downs - ups)]? = some y → t = s.handTarget (some y))) ∧
    -- coupled braking keeps the target at or below the reference gear
    (s.motion.record.coupled = false → s.keepTarget = s) ∧
    (s.motion.record.coupled = true → ∀ (p r : Nat) (x z : Nat), g.target = some x → l[p]? = some x →
      ref = some z → l[r]? = some z → s.keepTarget.gear = (if r < p then g.withTarget (some z) else g)) ∧
    -- the headland changes
    (∀ b : Nat, let t := s.headlandTarget b
      (¬ stops ∨ b ∉ l ∨ (∀ x ∈ l, g.target ≠ some x) → t = s.handTarget (some b)) ∧
      ∀ (p j r : Nat) (x z y : Nat), s.motion.record.coupled = true → g.target = some x → l[p]? = some x →
        l[j]? = some b → ref = some z → l[r]? = some z → l[if p < j then min j r else j]? = some y →
        t = s.handTarget (some y)) ∧
    (s.mode.op ≠ .run ∨ g.dirState = .n ∨ (∀ x ∈ l, g.current ≠ some x) → s.headlandOut = s) ∧
    (∀ (p : Nat) (a b : Nat), s.mode.op = .run → g.dirState ≠ .n → g.current = some a → l[p]? = some a →
      l[p - (gearHeader s.gearWords).kHl]? = some b → s.headlandOut = (s.headlandTarget b).gearDecide false) ∧
    ∀ (saved : Option Nat) (d : DirState),
      (s.mode.op ≠ .run ∨ g.dirState = .n → s.headlandIn saved d = s) ∧
      (s.mode.op = .run → g.dirState ≠ .n → saved = none ∨ d ≠ g.dirState → s.headlandIn saved d = s.gearDecide false) ∧
      ∀ b, s.mode.op = .run → g.dirState ≠ .n → d = g.dirState → saved = some b →
        s.headlandIn saved d = (s.headlandTarget b).gearDecide false

/-- What an accepted frame hands on (R18, R19), and what each block makes of it: the selector, the front axle, the hitch
(log 8) with what it hands on at an OUT or IN, and at a changed direction request the test of R171, each as an event of
its own (log 5). -/
def HandOnLaw : Prop :=
  (∀ a b : OperatorRecord,
    let n := operatorNews a b
    (n.direction = true ↔ a.direction ≠ b.direction) ∧ (n.shiftMode = true ↔ a.shiftMode ≠ b.shiftMode) ∧
    (n.driveMode = true ↔ a.driveMode ≠ b.driveMode) ∧ (n.transport = true ↔ a.transport ≠ b.transport) ∧
    (n.dial = true ↔ a.dial ≠ b.dial) ∧
    (∀ x, b.lastUp = some x → n.ups = presses a.lastUp x) ∧ (∀ x, b.lastDown = some x → n.downs = presses a.lastDown x) ∧
    (a.lastUp = none → n.headland = .none ∧ n.button = .none) ∧
    (a.lastUp ≠ none → n.headland = (if a.headland = .none then b.headland else .none) ∧
      n.button = if a.button = .none then b.button else .none)) ∧
  (∀ (n : OperatorNews) (s : State),
    let r := s.intake.record
    let g := s.gear
    let g' := if n.direction = true ∧ s.mode.op = .run then { g with shuttle := none, flag := .none } else g
    let g'' := if n.shiftMode = true ∧ r.shiftMode = .manual then { g' with deferral := .stopped } else g'
    let u := ({ s with gear := g'' } : State).pressTarget n.ups n.downs
    s.gearNews n = if n.direction = true ∨ n.shiftMode = true ∨ n.ups ≠ n.downs then u.gearDecide false else u) ∧
  ∀ (n : OperatorNews) (s : State),
    let b := if n.dial = true then s.dialChanged else s
    let c := if n.transport = true then b.transportChanged else b
    s.handOn n = { s with notices := s.notices ++ (.operator n :: ((if n.driveMode = true then [.axle] else []) ++
      .hitch n :: if n.direction = true then [.exit] else [])) } ∧
    s.takeNotice (.operator n) = s.gearNews n ∧ s.takeNotice .axle = s.facEvaluate ∧
    s.takeNotice (.hitch n) = (c.headlandNews n.headland).buttonPress n.button ∧
    s.takeNotice .headlandOut = s.headlandOut ∧ ∀ x y, s.takeNotice (.headlandIn x y) = s.headlandIn x y

/-! ### Words of the hitch and the headland (R122 to R128, R138 to R140) -/

/-- The transport test at an entry into HOLD: the hitch state after it (R127). -/
def State.holding (s : State) : HitchState :=
  if s.mode.op = .run ∧ s.intake.record.transport = true ∧ s.usable hitchPos = true ∧
    (s.hitchT.upper : Int) - 20 ≤ s.shown hitchPos then .transport else .hold

/-- The hitch state after an entry into RAISING and its entry test (R125). -/
def State.raised (s : State) : HitchState :=
  if s.usable hitchPos = false ∨ (s.hitchT.upper : Int) ≤ s.shown hitchPos then s.holding else .raising

/-- The hitch state after an entry into LOWERING and its entry test (R126). -/
def State.lowered (s : State) : HitchState := if s.usable hitchPos = true then .lowering else s.holding

/-- The hitch state after the match test in STARTUP_LOCK (R123). -/
def State.matched (s : State) : HitchState :=
  if s.usable hitchPos = true ∧ ((s.intake.record.dial : Int) * 4 - s.shown hitchPos).natAbs ≤ s.hitchT.matchWindow
  then .control else .startupLock

/-- The hitch stands in `st`, with no correcting raise outside CONTROL, and no restore dial but in CONTROL and LOWERING;
timer, memory and override as before, and nothing else of the part changes (R126, R137). -/
structure HitchMoved (s t : State) (st : HitchState) : Prop where
  only : t = { s with hitch := t.hitch }
  state : t.hitch.state = st
  timer : t.hitch.timer = s.hitch.timer
  memory : t.hitch.memory = s.hitch.memory
  override : t.hitch.override = s.hitch.override
  correcting : t.hitch.correcting = (s.hitch.correcting && st == .control)
  restore : st ≠ .control → st ≠ .lowering → t.hitch.restore = none

/-- The hitch buttons (R124). -/
def ButtonLaw : Prop :=
  ∀ (b : HitchButton) (s : State),
    (s.mode.op ≠ .run → s.buttonPress b = s) ∧
    (s.mode.op = .run →
      match b, s.hitch.state with
      | .raise, .startupLock | .raise, .hold | .raise, .control | .raise, .lowering =>
        HitchMoved s (s.buttonPress b) s.raised
      | .lower, .hold | .lower, .raising =>
        if (s.hitchT.lowerInhibit : Int) < s.motion.record.vg then s.buttonPress b = s
        else HitchMoved s (s.buttonPress b) s.lowered ∧ (s.buttonPress b).hitch.restore = none
      | .stop, .control | .stop, .raising | .stop, .lowering => HitchMoved s (s.buttonPress b) s.holding
      | _, _ => s.buttonPress b = s)

/-- The hitch states in which the transport test is made (R127). -/
def State.testsTransport (s : State) : Prop :=
  s.hitch.state = .hold ∨ s.hitch.state = .raising ∨ s.hitch.state = .control ∨ s.hitch.state = .lowering

/-- An update (`valid`) or state change of HITCH_POS: the transport test at a valid update, and then the match test in
STARTUP_LOCK, the test of RAISING, and HOLD in CONTROL and LOWERING without a usable position (R123, R125, R127, R128,
log 29). -/
def HitchPosLaw : Prop :=
  ∀ (valid : Bool) (s : State),
    let st := s.hitch.state
    let t := s.hitchPosNews valid
    (valid = true → s.testsTransport → s.holding = .transport → HitchMoved s t .transport) ∧
    (st = .startupLock → if s.matched = .control then HitchMoved s t .control else t = s) ∧
    (st = .transport → t = s) ∧
    (valid = false ∨ s.holding = .hold →
      (st = .hold → t = s) ∧
      (st = .raising → if s.usable hitchPos = true ∧ s.shown hitchPos < (s.hitchT.upper : Int) then t = s
        else HitchMoved s t s.holding) ∧
      (st = .control ∨ st = .lowering → if s.usable hitchPos = true then t = s else HitchMoved s t .hold))

/-- A change of the depth dial, of the transport request, an entry into RUN and a departure from it (R122, R123, R126,
R127). -/
def HitchLevelLaw : Prop :=
  ∀ s : State,
    let bare := { s with hitch := { s.hitch with restore := none } }
    let t := s.transportChanged
    (s.hitch.state = .startupLock ∧ s.matched = .control → HitchMoved bare s.dialChanged .control) ∧
    (¬(s.hitch.state = .startupLock ∧ s.matched = .control) → s.dialChanged = bare) ∧
    (s.mode.op ≠ .run → t = s) ∧
    (s.mode.op = .run → s.intake.record.transport = true →
      (s.testsTransport ∧ s.holding = .transport → HitchMoved s t .transport) ∧
      (¬(s.testsTransport ∧ s.holding = .transport) → t = s)) ∧
    (s.mode.op = .run → s.intake.record.transport = false →
      if s.hitch.state = .transport then HitchMoved s t .hold else t = s) ∧
    HitchMoved { s with hitch := { s.hitch with correcting := false } } s.hitchRun s.matched ∧
    s.hitchRun.hitch.restore = none ∧
    s.hitchLeavesRun = { s with hitch := ⟨.hold, none, false, none, false, s.hitch.timer⟩ }

/-- The headland requests (R138 to R140), and the events they bring to the Front Axle Controller and the Gear Selector. -/
def HeadlandLaw : Prop :=
  ∀ s : State,
    let dial := s.intake.record.dial
    let gear := if s.intake.record.shiftMode = .auto ∨ s.gear.dirState = .n then none else s.referenceGear
    let saved : HeadlandMemory :=
      ⟨s.hitch.restore.getD dial, decide (s.hitch.state = .lowering), gear, s.gear.dirState⟩
    let accepted := s.mode.op = .run ∧ (s.hitch.state = .control ∨ s.hitch.state = .lowering) ∧ s.hitch.memory = none
    s.headlandNews .none = s ∧
    (¬ accepted → s.headlandNews .out = s) ∧
    (accepted → ∃ u : State, s.headlandNews .out = { u with notices := u.notices ++ [.axle, .headlandOut] } ∧
      HitchMoved { s with hitch := { s.hitch with memory := some saved, override := true } } u s.raised) ∧
    (s.hitch.memory = none → s.headlandNews .inn = s) ∧
    ∀ m, s.hitch.memory = some m →
      (s.hitch.state = .transport ∨ (s.hitchT.lowerInhibit : Int) < s.motion.record.vg →
        s.headlandNews .inn = s) ∧
      (s.hitch.state ≠ .transport → s.motion.record.vg ≤ (s.hitchT.lowerInhibit : Int) →
        ∃ u : State,
          s.headlandNews .inn = { u with notices := u.notices ++ [.axle, .headlandIn m.gear m.direction] } ∧
          HitchMoved { s with hitch := { s.hitch with memory := none, override := false } } u s.lowered ∧
          (s.usable hitchPos = true →
            u.hitch.restore = if ((dial : Int) - m.dial).natAbs ≤ 20 then some m.dial else none))

/-! ### Words of the clutch step (R59 to R61, R65 to R77, R79 to R81, R84, R85) -/

/-- A SWAP1 or SWAP2. -/
def Order.Swaps (o : Order) : Prop := o.kind = .swap1 ∨ o.kind = .swap2

/-- An ENGAGE, or the ENGAGE sub-order of a SHUTTLE (R64). -/
def Order.Engages (o : Order) : Prop := o.kind = .engage ∨ o.kind = .shuttle ∧ o.sub = .engage

/-- The direction whose clutch the order dumps (R73, R76, R80, R81). -/
def Order.Dumps (o : Order) (d : Option Dir) : Prop :=
  match o.kind with
  | .swap1 | .swap2 => d = o.merged
  | .engage => d = if o.ending = true then some o.dir else none
  | .release => d = some o.dir
  | .free => d = none
  | .shuttle => d = match o.sub with
    | .dump => some o.origin
    | .free => none
    | .engage => if o.ending = true then some o.dir else none

/-- A phase runs one step with its step count at `k`: the pressures of the sets, what it captures and observes, and how it
ends. `drops`: the offgoing clutches are at 0 at once (R65 to R73, R79, R80). -/
def PhaseRuns (s : State) (o n : Order) (e : StepEnd) (k : Nat) (freed drops : Prop) [Decidable freed] [Decidable drops] :
    Prop :=
  let h := s.clutchHdr
  let at' := fun (f : Profile → Nat → Nat) (ds : List Drive) => ds.map fun d => ⟨d.clutch, f (s.prof d.clutch) d.kPa⟩
  let on := fun f => n.oncoming = at' f o.oncoming
  let off := fun f => n.offgoing = at' f o.offgoing
  let same : Profile → Nat → Nat := fun _ x => x
  let rises : Profile → Nat → Nat := fun p x => if k = 1 then p.pRamp0 else min p.pMax (x + p.rOn)
  let pulse := fun p : Profile => (max 10 (min 300 ((p.tPulse : Int) + p.adapt))).toNat / 10
  let synced := (s.shown outSpeed - (s.shown engSpeed * o.ratioTo).tdiv 4096).natAbs ≤ h.syncWindow
  match n.phase with
  | .waitSupply => on same ∧ off same ∧ e = if h.fillWaitMs / 10 ≤ k then .part .refusedSupply else .goesOn
  | .prepare => on (fun _ _ => 0) ∧ off (fun p _ => if drops then 0 else p.pOffhold) ∧
      n.inRef = s.shown engSpeed ∧ n.outRef = s.shown outSpeed ∧ e = .phase .fill
  | .fill => on (fun p _ => if k ≤ pulse p then p.pPulse else p.pHold) ∧ off (fun _ x => if drops then 0 else x) ∧
      ((∀ d ∈ o.oncoming, pulse (s.prof d.clutch) + (s.prof d.clutch).tHold / 10 ≤ k) →
        (o.Engages → e = .phase .ramp) ∧ (¬ o.Engages → e = .phase (if drops then .lock else .overlap))) ∧
      (¬(∀ d ∈ o.oncoming, pulse (s.prof d.clutch) + (s.prof d.clutch).tHold / 10 ≤ k) → e = .goesOn)
  | .overlap => on rises ∧ off (fun p x => x - p.rOff) ∧
      (n.flare = true ↔ o.flare = true ∨ o.inRef + h.flare < s.shown engSpeed) ∧
      (n.tieUp = true ↔ o.tieUp = true ∨ s.shown outSpeed < o.outRef - h.tieUp) ∧
      e = if (∀ d ∈ n.offgoing, d.kPa = 0) then .phase (if synced then .lock else .sync) else .goesOn
  | .sync => on (fun p x => min p.pMax (x + p.rOn)) ∧ off same ∧
      (n.forced = true ↔ o.forced = true ∨ ¬ synced ∧ h.syncMaxMs / 10 ≤ k) ∧
      e = if synced ∨ h.syncMaxMs / 10 ≤ k then .phase .lock else .goesOn
  | .lock => on (fun p _ => p.pMax) ∧ off (fun _ _ => 0) ∧ (¬ o.Swaps → e = .part .completed) ∧
      (o.Swaps → e = .part (if freed then .free else if o.forced = true then .forcedLock else .completed))
  | .ramp => on rises ∧ off same ∧
      e = if (∀ d ∈ n.oncoming, d.kPa = (s.prof d.clutch).pMax) then .phase .lock else .goesOn
  | .dump => (o.Swaps → on fun p _ => p.pMax) ∧ (¬ o.Swaps → on same) ∧ off same ∧ e = .goesOn

/-- One clutch step of an order: the pedal is read, the phase runs, and a dump falls by R_off from the command of the step
before (R59, R66, R71, R73, R79, R80). -/
def OrderStepLaw : Prop :=
  ∀ (s : State) (o n : Order) (e : StepEnd), s.stepOrder o = (n, e) →
    let freed := o.freed = true ∨ o.kind.isSwap = true ∧ o.phase ≠ .lock ∧ o.phase ≠ .dump ∧ 500 ≤ s.shown clutchPedal
    let locks := o.kind.isSwap = true ∧ freed ∧ (o.phase = .overlap ∨ o.phase = .sync)
    let k := if locks then 1 else o.count + 1
    n = { o with oncoming := n.oncoming, offgoing := n.offgoing, phase := if locks then .lock else o.phase, count := k,
                 inRef := n.inRef, outRef := n.outRef, flare := n.flare, tieUp := n.tieUp, forced := n.forced,
                 throttleHeld := n.throttleHeld, freed := decide freed, dump := n.dump,
                 duration := min 65535 (o.duration + 1) } ∧
      PhaseRuns s o n e k freed (freed ∨ o.kind.isSwap = false) ∧
      (n.throttleHeld = true ↔ 100 ≤ s.shown throttle ∧ (n.phase = .prepare ∨ o.throttleHeld = true)) ∧
      (n.phase ≠ .prepare → n.inRef = o.inRef ∧ n.outRef = o.outRef) ∧
      (n.phase ≠ .overlap → n.flare = o.flare ∧ n.tieUp = o.tieUp) ∧ (n.phase ≠ .sync → n.forced = o.forced) ∧
      (o.Dumps none → n.dump = o.dump) ∧
      (o.Dumps (some .f) → n.dump = some (o.dump.getD (s.command 7) - (s.prof 7).rOff)) ∧
      (o.Dumps (some .r) → n.dump = some (o.dump.getD (s.command 8) - (s.prof 8).rOff))

/-- Whether the order ends on a step, and with which result (R71, R73, R76, R80, R81). -/
def OrderEndsLaw : Prop :=
  ∀ (o : Order) (e : StepEnd),
    let r := o.endsWith e
    let falling := ¬ o.Dumps none ∧ o.dump ≠ some 0
    let part := match e with
      | .part x => some x
      | _ => o.partEnd
    (falling → r = none) ∧
    (¬ falling → (o.Swaps → r = part) ∧
      (¬ o.Swaps → o.ending = true → r = some .aborted) ∧
      (o.ending = false →
        (o.kind = .engage ∨ o.kind = .free → r = part) ∧
        (o.kind = .release → r = some .completed) ∧
        (o.kind = .shuttle → r = match e with
          | .part x => if x = .refusedSupply ∨ o.sub = .engage then some x else none
          | _ => none)))

/-- The commands that a step in which the order stands at `n` gives: its own pressures, and the other clutches as held
(R61, R72, R73, R75; those of a SHUTTLE are log 12). -/
def DrivenCommands (s : State) (n : Order) (command : Fin 10 → Nat) : Prop :=
  let held := clutchesOf s (if n.kind = .shuttle then n.lastLocked else s.gear.current)
  let given := fun (ds : List Drive) (c x : Nat) => ∃ a b, ds = a ++ ⟨c, x⟩ :: b ∧ ∀ d ∈ a, d.clutch ≠ c
  let limited := fun (c x : Nat) => min x (pedalLimit (s.prof c).pMax (s.shown clutchPedal))
  let none' := fun (ds : List Drive) (c : Nat) => ∀ d ∈ ds, d.clutch ≠ c
  (∀ c : Fin 10, c.val < 7 →
    let drives := n.driving = true ∧ ¬ n.Engages
    (∀ x, drives → given (n.oncoming ++ n.offgoing) c.val x → command c = x) ∧
    (¬ drives ∨ none' (n.oncoming ++ n.offgoing) c.val →
      command c = if c.val ∈ held then (s.prof c.val).pMax else 0)) ∧
  (∀ (d : Dir) (c : Fin 10), c.val = (if d = .f then 7 else 8) →
    let drives := n.Engages ∧ n.dir = d ∧ n.driving = true
    (s.mode.op = .unloaded ∨ s.mode.op = .setup → command c = 0) ∧
    (s.mode.op ≠ .unloaded → s.mode.op ≠ .setup →
      (n.Dumps (some d) → command c = limited c.val (n.dump.getD 0)) ∧
      (¬ n.Dumps (some d) → drives → ∀ x, given n.oncoming c.val x →
        command c = if n.phase = .fill then x else limited c.val x) ∧
      (¬ n.Dumps (some d) → ¬ drives →
        command c = if s.gear.dirState = d.state then limited c.val (s.prof c.val).pMax else 0))) ∧
  command 9 = s.facCommand

/-- A sub-order of a SHUTTLE begins: the FREE, or the ENGAGE (R76). -/
def SubOrderBegins (n m : Order) (sub : SubOrder) (locked : Option Nat) : Prop :=
  m.kind = .shuttle ∧ m.sub = sub ∧ m.count = 0 ∧ m.duration = n.duration ∧ m.lastLocked = locked ∧
    m.toGear = n.toGear ∧ m.dir = n.dir ∧ (m.phase = .waitSupply ∨ m.driving = true) ∧
    m.oncoming = (if sub = .engage then [⟨if n.dir = .f then 7 else 8, 0⟩] else n.moveOn.map (⟨·, 0⟩)) ∧
    m.offgoing = (if sub = .engage then [] else n.moveOff.map (⟨·, 0⟩)) ∧
    (m.phase = .waitSupply ∨ m.phase = if sub = .engage then .fill else .prepare)

/-- CLUTCH_STEP with an order in flight, no front axle request waiting (R59, R60, R70, R71, R76, R77, R80, R84, R85; the
frames of a step that ends the order are log 10, adaptation only while table 5 is COMMITTED is log 27, the order of the two
raises of a SWAP2 is log 31). -/
def ClutchStepLaw : Prop :=
  ∀ (s : State) (o n : Order) (e : StepEnd), s.Ready → s.shift.order = some o → s.arbiter.facWait = false →
    s.stepOrder o = (n, e) →
    let r := n.endsWith e
    let adapts := n.Swaps ∧ r = some .completed ∧ n.freed = false ∧ n.throttleHeld = true ∧
      s.tables.clutch.state = .committed
    let delta : Int := if n.flare = true ∧ n.tieUp = false then 10 else if n.tieUp = true ∧ n.flare = false then -10 else 0
    ∃ t, exec .clutchStep s = .next t ∧
      t.now = max s.now (s.shift.timer.getD s.now) ∧ t.shift.rolling = s.shift.rolling + 1 ∧
      t.shift.timer = some (s.shift.timer.getD t.now + 10 * Config.msTicks) ∧
      DrivenCommands s n t.command ∧
      (t.neut = true ↔ t.command 7 = 0 ∧ t.command 8 = 0 ∧ ∀ m, t.shift.order = some m → ¬ m.Engages) ∧
      t.mail.clutchA = ⟨some (((List.finRange 10).take 7).map (fun c => byte1 (t.command c / 10 : Nat)) ++
        [t.shift.rolling]), true⟩ ∧
      t.mail.clutchB = ⟨some ([byte1 (t.command 7 / 10 : Nat), byte1 (t.command 8 / 10 : Nat),
        byte1 (t.command 9 / 10 : Nat), byte1 n.phase.code, byte1 (gearCode t.gear.current),
        byte1 (gearCode t.gear.target), byte1 s.mode.op.code, t.shift.rolling]), true⟩ ∧
      -- the order goes on
      (r = none → n.kind = .shuttle → n.sub = .dump → n.dump ≠ some 0 → t.shift.order = some n) ∧
      (r = none → n.kind = .shuttle → n.sub = .dump → n.dump = some 0 → ∃ m, t.shift.order = some m ∧
        SubOrderBegins n m (if n.moveOn = [] then .engage else .free) n.lastLocked) ∧
      (r = none → n.kind ≠ .shuttle ∨ n.sub ≠ .dump →
        (e = .goesOn → t.shift.order = some n) ∧
        (∀ p, e = .phase p → t.shift.order = some { n with phase := p, count := 0 }) ∧
        (∀ x, e = .part x → n.kind = .shuttle → ∃ m, t.shift.order = some m ∧ SubOrderBegins n m .engage n.toGear) ∧
        (∀ x, e = .part x → n.kind ≠ .shuttle → ∃ b, t.shift.order =
          some { n with phase := .dump, count := 0, partEnd := some x, driving := b } ∧
            (b = true ↔ n.driving = true ∧ (x = .completed ∨ x = .free ∨ x = .forcedLock)))) ∧
      (r = none → t.gear = s.gear ∧ t.mail.shiftRecord = s.mail.shiftRecord) ∧
      -- the order ends
      (∀ x, r = some x →
        t.gear.holdOff = some (t.now + (scheduleHeader (s.inUse .shiftSchedule)).holdOffMs * Config.msTicks) ∧
        (∀ m, t.shift.order = some m → m.duration = 0 ∧ m.count = 0 ∧ m.merged = none) ∧
        let change := match n.oncoming with
          | [] => (0 : Int)
          | d :: _ => (t.prof d.clutch).adapt - (s.prof d.clutch).adapt
        t.mail.shiftRecord = ⟨some ([byte1 (gearCode n.fromGear), byte1 (gearCode n.toGear), byte1 n.kind.code,
          byte1 x.code] ++ bytes2 n.duration ++ [byte1 (observationFlags n.flare n.tieUp), byte1 change]), true⟩) ∧
      -- adaptation and faults
      (¬ adapts → t.tables = s.tables) ∧
      (adapts → t.tables = { s.tables with clutch := ⟨.committed, t.tables.clutch.loaded⟩ } ∧
        let set := n.oncoming.map (·.clutch)
        (s.tables.clutch.loaded.length = 21 → set.Nodup → ∀ c : Nat, c < 10 →
          let a := (s.prof c).adapt
          t.prof c = { s.prof c with adapt := if c ∈ set then max (-50) (min 50 (a + delta)) else a })) ∧
      (let raised := if n.phase = .sync ∧ e ≠ .goesOn ∧ n.forced = true
          then n.oncoming.foldl (fun f d => f.raised .shiftSyncTimeout d.clutch (some (t.now + 1000 * Config.msTicks)))
            s.faults
          else s.faults;
        (n.Swaps ∧ r = some .completed →
          t.faults = n.oncoming.foldl (fun f d => f.cleared .shiftSyncTimeout d.clutch) raised) ∧
        (¬(n.Swaps ∧ r = some .completed) → t.faults = raised)) ∧
      t.motion = s.motion ∧ t.intake = s.intake ∧ t.mode = s.mode ∧ t.hitch = s.hitch ∧ t.fac = s.fac ∧
      t.supervisor = s.supervisor

end Sys2Proof.Machine

namespace Sys2Proof

open Machine

/-- A command that brings a frame, or an end of a frame, to the controller of link `l`. -/
def Instr.received : Instr → Option Link
  | .signalFrame _ l _ _ => some l
  | .operatorCommand _ l _ _ => some l
  | .unmatchedFrame _ l _ _ => some l
  | .otherFrameReceived l => some l
  | .frameRxError l => some l
  | .statusQuery _ _ _ => some .t
  | .enterSetup _ _ => some .t
  | .leaveSetup _ _ => some .t
  | .selectTable _ _ => some .t
  | .writeWords _ _ => some .t
  | .readWords _ _ => some .t
  | .commitTable _ _ => some .t
  | .faultAck _ _ => some .t
  | .captureZero _ _ => some .t
  | .restart _ _ => some .t
  | _ => none

/-- The arrival time, the code byte and the request of a management request. -/
def Instr.request : Instr → Option (Time × Byte × ReqFrame)
  | .statusQuery t c r => some (t, c, r)
  | .enterSetup t r => some (t, 0x02, r)
  | .leaveSetup t r => some (t, 0x03, r)
  | .selectTable t r => some (t, 0x10, r)
  | .writeWords t r => some (t, 0x11, r)
  | .readWords t r => some (t, 0x12, r)
  | .commitTable t r => some (t, 0x13, r)
  | .faultAck t r => some (t, 0x20, r)
  | .captureZero t r => some (t, 0x30, r)
  | .restart t r => some (t, 0x3F, r)
  | _ => none

/-- The commands that a reset in progress takes. -/
def Instr.ofReset : Instr → Bool
  | .powerOnReset => true
  | .pinReset => true
  | .resetEnd => true
  | _ => false

/-- The commands that can write a table: the reset's end, WRITE_WORDS and COMMIT_TABLE, the clutch step (adaptation)
and the ends of measurements (a completed zero capture). -/
def Instr.writesTables : Instr → Bool
  | .resetEnd => true
  | .writeWords _ _ => true
  | .commitTable _ _ => true
  | .clutchStep => true
  | .fillWaitTimeout => true
  | .syncTimeout => true
  | .refGateEnd _ => true
  | .refOverrange => true
  | .sensorMeasurementEnd _ => true
  | .sensorStall => true
  | _ => false

/-- The frames that the Frame Intake matches. -/
def Instr.matched : Instr → Bool
  | .signalFrame _ _ _ _ => true
  | .operatorCommand _ _ _ _ => true
  | .unmatchedFrame _ _ _ _ => true
  | _ => false

/-- The commands that can change a slot besides: resets, slot timers, and what changes the map in use. -/
def Instr.writesSlots (i : Instr) : Bool :=
  i.ofReset || i.matched || match i with
    | .restartBegin => true
    | .txSuccess _ => true
    | .writeWords _ _ => true
    | .commitTable _ _ => true
    | .slotTimeout _ => true
    | .slotHoldExpiry _ => true
    | _ => false

end Sys2Proof

open Sys2Proof Sys2Proof.Machine

/-! ### The queue and the invariant -/

def Obligations.StepRunsTheFrontCommand : Prop :=
  ∀ (c : Instr) (s : State), step { s with pending := c :: s.pending } = exec c s

/-- The model's choice (log 2): on an empty queue the time base moves on by one count and nothing else does but the
capture time counter. -/
def Obligations.EmptyQueueTicksTheTimeBase : Prop :=
  ∀ s : State, s.pending = [] → ∃ t, step s = .next t ∧ t.now = s.now + 1 ∧
    t = { s with now := t.now, draft := { s.draft with timeCount := t.draft.timeCount } } ∧
    s.draft.timeCount ≤ t.draft.timeCount ∧ t.draft.timeCount ≤ s.draft.timeCount + 1 ∧
    (s.resetting ≠ none → t.draft = s.draft)

def Obligations.EveryCommandAnswersNextAndKeepsTheQueue : Prop :=
  ∀ (c : Instr) (s : State), ∃ t, exec c s = .next t ∧ t.pending = s.pending

def Obligations.EveryStepKeepsTheInvariant : Prop :=
  ∀ s t : State, s.Ok → step s = .next t → t.Ok

def Obligations.ResetStateMeetsTheInvariant : Prop := State.reset.Ok

/-! ### Resets (R173, R188) -/

def Obligations.SupplyAndPinBeginAReset : Prop :=
  ∀ s : State,
    (∃ t, exec .powerOnReset s = .next t ∧ t.resetting = some .powerOn ∧ t.Stopped ∧ t.neut = false ∧
      t.mode.stops = 0 ∧ t.rstn = s.rstn) ∧
    (∃ t, exec .pinReset s = .next t ∧ t.resetting = some (if s.resetting = some .powerOn then .powerOn else .pin) ∧
      t.Stopped ∧ t.neut = false ∧ t.mode.stops = s.mode.stops ∧ t.rstn = false)

/-- The queue and the counter of the free value are the model's own (logs 4 and 5). -/
def Obligations.ResetEndGivesTheStateAfterAReset : Prop :=
  ∀ (s : State) (k : ResetKind), s.resetting = some k →
    exec .resetEnd s = .next { State.reset with
      pending := s.pending
      free := s.free
      mode := { State.reset.mode with cause := k, stops := if k = .powerOn then 0 else s.mode.stops } }

def Obligations.PendingRestartBeginsAfterItsWait : Prop :=
  ∀ s : State, s.resetting = none →
    (∀ x, s.mgmt.restart = some x → ∃ t, exec .restartBegin s = .next t ∧ t.resetting = some .management ∧ t.Stopped ∧
      t.neut = false ∧ t.mode.stops = s.mode.stops ∧ t.now = max s.now x) ∧
    (s.mgmt.restart = none → exec .restartBegin s = .next s)

def Obligations.OnlyResetCommandsActDuringAReset : Prop :=
  ∀ (c : Instr) (s : State), s.resetting ≠ none → c.ofReset = false → exec c s = .next s

def Obligations.ResetLeavesTheStatedValues : Prop :=
  State.reset.mode.op = .unloaded ∧ State.reset.mode.stops = 0 ∧ State.reset.mode.cause = .powerOn ∧
  State.reset.supervisor.tripped = false ∧ State.reset.supervisor.token = 0x3C ∧ State.reset.supervisor.errors = 0 ∧
  State.reset.faults.entries = [] ∧ State.reset.faults.overflow = false ∧ State.reset.faults.position = 0 ∧
  State.reset.gear.dirState = .n ∧ State.reset.gear.presel = .f ∧ State.reset.gear.current = none ∧
  State.reset.gear.target = none ∧ State.reset.gear.flag = .none ∧ State.reset.shift.order = none ∧
  (∀ c : Fin 10, State.reset.command c = 0) ∧ State.reset.neut = true ∧
  State.reset.arbiter.count .free = 2 ∧ State.reset.fac.state = .engaged ∧ State.reset.facCommand = 0 ∧
  State.reset.hitch.state = .hold ∧ State.reset.hitch.memory = none ∧ State.reset.trailer.command = 0 ∧
  State.reset.motion.record = ⟨0, .none, 0, 0, 0, false, false, false⟩ ∧
  State.reset.draft.record = ⟨0, 0, 0, .none⟩ ∧ State.reset.draft.pos = .refLeft ∧
  State.reset.intake.record = ⟨.n, .manual, .on, .none, .none, false, 0, 0, 0, 0, none, none⟩ ∧
  (∀ i : Fin 16, (State.reset.slot i).state = (if 2 ≤ i.val ∧ i.val ≤ 7 then .waiting else .unmapped) ∧
    State.reset.shown i = 0) ∧
  (∀ l : Link, (State.reset.link l).txCount = 0 ∧ (State.reset.link l).rxCount = 0 ∧
    (State.reset.link l).error = .active ∧ (State.reset.link l).silence = .ok ∧ (State.reset.link l).queue = []) ∧
  (∀ id : MailboxId, State.reset.mail.get id = ⟨none, false⟩) ∧ State.reset.mgmt = ⟨none, none, none⟩ ∧
  (∀ id : TableId, State.reset.table id = ⟨.resetDefault, id.resetWords⟩)

/-! ### What commands leave alone -/

def Obligations.TablesChangeByTheirWritersAlone : Prop :=
  ∀ (c : Instr) (s : State), c.wf = true → c.writesTables = false → ∃ t, exec c s = .next t ∧ t.tables = s.tables

def Obligations.OperatorRecordChangesByMatchedFramesAlone : Prop :=
  ∀ (c : Instr) (s : State), c ≠ .resetEnd → c.matched = false → ∃ t, exec c s = .next t ∧ t.intake.record = s.intake.record

def Obligations.SlotsChangeByTheirWritersAlone : Prop :=
  ∀ (c : Instr) (s : State), c.wf = true → c.writesSlots = false → ∃ t, exec c s = .next t ∧ t.intake = s.intake

/-! ### Received frames (chapters 1, 10 and 11) -/

/-- R2, R5 to R8, R12: a matched SIGNAL frame updates the slots its available extractions feed, and no other, and the
updates are announced together; `u` is the state at that announcement. An update of HITCH_POS makes the tests of the hitch
state (R123, R125, R127, R128, log 29). -/
def Obligations.SignalFrameUpdatesItsSlots : Prop :=
  (∀ (s : State) (time : Time) (l : Link) (f : RxFrame) (e : MapEntry),
    s.resetting = none → (s.link l).error ≠ .busOff → MatchedTo s l (rxFrame f) e → e.kind = .signal →
    (e.extractions.map (·.slot)).Nodup → (∀ x ∈ e.extractions, (s.slot x.slot).state ≠ .unmapped) →
    ∃ t, exec (.signalFrame time l false f) s = .next t ∧ t.now = max s.now time ∧
      (∀ x ∈ e.extractions, x.present (rxFrame f).data = true → x.available (rxFrame f).data = true →
        t.slot x.slot =
          ⟨.fresh, x.value (rxFrame f).data, some (t.now + s.timeoutMs x.slot * Config.msTicks)⟩) ∧
      (∀ i, (∀ x ∈ e.extractions, x.slot = i →
          x.present (rxFrame f).data = false ∨ x.available (rxFrame f).data = false) → t.slot i = s.slot i) ∧
      t.intake.record = s.intake.record ∧ t.tables = s.tables ∧ t.mgmt = s.mgmt ∧ t.supervisor = s.supervisor ∧
      t.draft.record = s.draft.record ∧ t.mail.reply = s.mail.reply ∧ t.emission = s.emission ∧
      (s.Undisturbed l → ∃ u : State, u.SameDrive s ∧ u.now = t.now ∧ u.intake = t.intake ∧ u.tables = t.tables ∧
        u.notices = [] ∧
        let fed := (e.extractions.filter fun x => x.present (rxFrame f).data && x.available (rxFrame f).data).map (·.slot)
        let news : SlotNews := ⟨fed, [], fed.filter fun i => (s.slot i).state != .fresh⟩
        t = if fed = [] then u else (u.announceSlots news).settled)) ∧
  HitchPosLaw

/-- R5 to R7. -/
def Obligations.ExtractedValueIsScaledShiftedAndClamped : Prop :=
  ∀ (x : Extraction) (data : List Byte),
    x.rawBits data = (if x.wide = false then dataAt data x.start
      else if x.big = false then dataAt data x.start + 256 * dataAt data (x.start + 1)
      else 256 * dataAt data x.start + dataAt data (x.start + 1)) ∧
    (x.present data = true ↔ x.start + (if x.wide then 2 else 1) ≤ data.length) ∧
    (x.available data = true ↔ x.rawBits data ≠ (if x.wide then 65535 else 255)) ∧
    ∃ raw q : Int,
      raw = (if x.signed = true ∧ (if x.wide then 32768 else 128) ≤ x.rawBits data
        then (x.rawBits data : Int) - (if x.wide then 65536 else 256) else x.rawBits data) ∧
      q * 2 ^ x.shift ≤ raw * x.mult ∧ raw * x.mult < (q + 1) * 2 ^ x.shift ∧
      x.value data = max (slotRange x.slot).1 (min (slotRange x.slot).2 (q + x.offset))

/-- R2, R156, R160. -/
def Obligations.UnmatchedFrameIsCountedAndDropped : Prop :=
  ∀ (s : State) (time : Time) (l : Link) (f : RxFrame),
    s.resetting = none → (s.link l).error ≠ .busOff → Unmatched s l (rxFrame f) →
    ∃ t, exec (.unmatchedFrame time l false f) s = .next t ∧ t.now = max s.now time ∧
      (t.link l).rxCount = (s.link l).rxCount - 1 ∧ (t.link l).silence = .ok ∧ (t.link l).silenceStart = some t.now ∧
      (∀ k, (t.link k).queue = (s.link k).queue) ∧
      t.intake = s.intake ∧ t.tables = s.tables ∧ t.mgmt = s.mgmt ∧ t.supervisor = s.supervisor ∧
      t.draft.record = s.draft.record ∧ t.mail.reply = s.mail.reply

/-- R3, R162: a matched frame with the forward flag joins the tail of the other link's queue, or is dropped there. -/
def Obligations.MatchedFrameIsForwardedWhenFlagged : Prop :=
  ∀ (s : State) (time : Time) (l : Link) (f : RxFrame) (e : MapEntry) (c : Instr),
    s.resetting = none → (s.link l).error ≠ .busOff → MatchedTo s l (rxFrame f) e →
    (c = .signalFrame time l false f ∨ c = .operatorCommand time l false f) →
    ∃ t, exec c s = .next t ∧
      (t.link l.other).queue = (if e.forward = true ∧ (s.link l.other).queue.length < 8
        then (s.link l.other).queue ++ [rxFrame f] else (s.link l.other).queue) ∧
      (t.link l.other).dropTimer = (if e.forward = true ∧ 8 ≤ (s.link l.other).queue.length
        then some (t.now + 1000 * Config.msTicks) else (s.link l.other).dropTimer) ∧
      (e.forward = true ∧ 8 ≤ (s.link l.other).queue.length →
        s.faults.Raises .passageDrop l.other.index t.faults)

/-- R16, R18, R19, R174, R176: an Operator Command frame that is neither early nor carries the wrong token, and what it
hands on: to the Gear Selector (R44 to R49, R51, R52, R54 to R58), the Front Axle Controller, and the hitch and the
headland (R122 to R127, R138 to R140), as events that are taken in any order (R94, log 5). `u` is the state at
which the changes are handed on. -/
def Obligations.AcceptedOperatorFrameUpdatesRecordAndSupervisor : Prop :=
  (∀ (s : State) (time : Time) (l : Link) (f : RxFrame) (e : MapEntry),
    s.resetting = none → (s.link l).error ≠ .busOff → MatchedTo s l (rxFrame f) e → e.kind = .operator →
    (∀ t0, s.supervisor.lastAccepted = some t0 → s.superT.tMinMs * Config.msTicks ≤ max s.now time - t0) →
    dataAt (rxFrame f).data 0 = (if s.supervisor.expectLow then 0x3C else 0xC3) →
    ∃ t, exec (.operatorCommand time l false f) s = .next t ∧ t.now = max s.now time ∧
      t.intake = { s.intake with record := s.intake.record.after (rxFrame f).data } ∧
      t.supervisor.expectLow = !s.supervisor.expectLow ∧ t.supervisor.lastAccepted = some t.now ∧
      t.supervisor.late = some (t.now + s.superT.tMaxMs * Config.msTicks) ∧
      (s.supervisor.tripped = false → t.supervisor.tripped = false ∧
        t.supervisor.errors = s.supervisor.errors - 1 ∧ t.supervisor.goodRun = s.supervisor.goodRun) ∧
      (s.supervisor.tripped = true →
        if s.superT.recovery ≤ min 255 (s.supervisor.goodRun + 1) ∧ t.intake.record.direction = .n
        then t.supervisor.tripped = false ∧ t.supervisor.errors = 0 ∧ t.supervisor.goodRun = 0
        else t.supervisor.tripped = true ∧ t.supervisor.errors = s.supervisor.errors - 1 ∧
          t.supervisor.goodRun = min 255 (s.supervisor.goodRun + 1)) ∧
      t.tables = s.tables ∧ t.mgmt = s.mgmt ∧ t.draft.record = s.draft.record ∧ t.mail.reply = s.mail.reply ∧
      (s.Undisturbed l → ∃ u : State, u.SameDrive s ∧ u.now = t.now ∧ u.intake = t.intake ∧ u.tables = t.tables ∧
        u.supervisor = t.supervisor ∧
        u.notices = (if s.supervisor.tripped = true ∧ t.supervisor.tripped = false then [.causes] else []) ∧
        t = (u.handOn (operatorNews s.intake.record t.intake.record)).settled)) ∧
  HandOnLaw ∧ SettledLaw ∧ SelectorLaw ∧ EngagedLaw ∧ HandedReleaseLaw ∧ TargetLaw ∧ ButtonLaw ∧ HitchLevelLaw ∧ HeadlandLaw

/-- R17 and R18: what the record takes from a frame, and the presses that a counter brings. -/
def Obligations.OperatorRecordClampsAndHolds : Prop :=
  (∀ (r : OperatorRecord) (d : List Byte),
    let bits := fun k lo len => dataAt d k / 2 ^ lo % 2 ^ len
    let n := r.after d
    n.dial = min 250 (dataAt d 4) ∧ n.mix = min 100 (dataAt d 5) ∧ n.drop = min 100 (dataAt d 6) ∧
    n.slipLimit = min 50 (dataAt d 7) ∧
    (bits 2 0 2 = 0 → n.direction = .n) ∧ (bits 2 0 2 = 1 → n.direction = .f) ∧ (bits 2 0 2 = 2 → n.direction = .r) ∧
    (bits 2 0 2 = 3 → n.direction = r.direction) ∧
    (bits 2 3 2 = 0 → n.driveMode = .off) ∧ (bits 2 3 2 = 1 → n.driveMode = .on) ∧
    (bits 2 3 2 = 2 → n.driveMode = .auto) ∧ (bits 2 3 2 = 3 → n.driveMode = r.driveMode) ∧
    (bits 3 0 2 = 0 → n.headland = .none) ∧ (bits 3 0 2 = 1 → n.headland = .out) ∧
    (bits 3 0 2 = 2 → n.headland = .inn) ∧ (bits 3 0 2 = 3 → n.headland = r.headland) ∧
    (n.shiftMode = .auto ↔ bits 2 2 1 = 1) ∧ (n.transport = true ↔ bits 3 4 1 = 1) ∧
    (bits 3 2 2 = 0 → n.button = .none) ∧ (bits 3 2 2 = 1 → n.button = .raise) ∧ (bits 3 2 2 = 2 → n.button = .lower) ∧
    (bits 3 2 2 = 3 → n.button = .stop) ∧
    n.lastUp = some (BitVec.ofNat 4 (bits 1 0 4)) ∧ n.lastDown = some (BitVec.ofNat 4 (bits 1 4 4))) ∧
  (∀ n : BitVec 4, presses none n = 0) ∧
  ∀ last n : BitVec 4, let d := (n.toNat + 16 - last.toNat) % 16
    presses (some last) n = if d ≤ 7 then d else 0

/-- R174, R175: an early frame or one with the wrong token. -/
def Obligations.DiscardedOperatorFrameIsAnError : Prop :=
  ∀ (s : State) (time : Time) (l : Link) (f : RxFrame) (e : MapEntry),
    s.resetting = none → (s.link l).error ≠ .busOff → MatchedTo s l (rxFrame f) e → e.kind = .operator →
    ((∃ t0, s.supervisor.lastAccepted = some t0 ∧ max s.now time - t0 < s.superT.tMinMs * Config.msTicks) ∨
      dataAt (rxFrame f).data 0 ≠ (if s.supervisor.expectLow then 0x3C else 0xC3)) →
    ∃ t, exec (.operatorCommand time l false f) s = .next t ∧ t.intake = s.intake ∧
      t.supervisor.errors = min 255 (s.supervisor.errors + 1) ∧
      t.supervisor.tripped = (s.supervisor.tripped || decide (s.superT.trip ≤ min 255 (s.supervisor.errors + 1))) ∧
      t.supervisor.goodRun = (if t.supervisor.tripped then 0 else s.supervisor.goodRun) ∧
      t.supervisor.expectLow = s.supervisor.expectLow ∧ t.supervisor.lastAccepted = s.supervisor.lastAccepted ∧
      t.supervisor.late = s.supervisor.late ∧
      (s.supervisor.tripped = false → t.supervisor.tripped = true → s.faults.Raises .cmdSupervision 0 t.faults) ∧
      t.tables = s.tables ∧ t.mgmt = s.mgmt ∧ t.draft.record = s.draft.record ∧ t.mail.reply = s.mail.reply

/-- R156, R157: frames that reach no block change the receive count; the error state follows it (R158). -/
def Obligations.OtherFramesAndErrorsMoveTheReceiveCount : Prop :=
  ∀ (s : State) (l : Link), s.resetting = none → (s.link l).error ≠ .busOff →
    (∃ t, exec (.otherFrameReceived l) s = .next t ∧ (t.link l).rxCount = (s.link l).rxCount - 1 ∧
      (t.link l).txCount = (s.link l).txCount ∧
      (t.link l).error = (if (s.link l).txCount < 128 ∧ (s.link l).rxCount - 1 < 128 then .active else .passive) ∧
      (t.link l).silence = (s.link l).silence ∧ (t.link l).silenceStart = (s.link l).silenceStart ∧
      (t.link l).queue = (s.link l).queue ∧ (t.link l).dropTimer = (s.link l).dropTimer ∧
      t.intake = s.intake ∧ t.tables = s.tables ∧ t.mgmt = s.mgmt) ∧
    (∃ t, exec (.frameRxError l) s = .next t ∧ (t.link l).rxCount = min 255 ((s.link l).rxCount + 1) ∧
      (t.link l).txCount = (s.link l).txCount ∧
      (t.link l).error = (if (s.link l).txCount < 128 ∧ (s.link l).rxCount + 1 < 128 then .active else .passive) ∧
      (t.link l).silence = (s.link l).silence ∧ (t.link l).silenceStart = (s.link l).silenceStart ∧
      (t.link l).queue = (s.link l).queue ∧ (t.link l).dropTimer = (s.link l).dropTimer ∧
      t.intake = s.intake ∧ t.tables = s.tables ∧ t.mgmt = s.mgmt)

/-- R159. -/
def Obligations.BusOffControllerReceivesNothing : Prop :=
  ∀ (c : Instr) (s : State) (l : Link), c.received = some l → (s.link l).error = .busOff → exec c s = .next s

/-! ### Management requests (chapter 12) -/

/-- R181, cases 1 and 2. Byte 2 of such a reply to a FAULT_ACK is log 30. -/
def Obligations.ShortOrUnknownRequestIsMalformed : Prop :=
  ∀ (c : Instr) (s : State) (time : Time) (code : Byte) (r : ReqFrame),
    c.request = some (time, code, r) → s.Ready → s.tLink.error ≠ .busOff →
    (r.dlcCode.val = 0 → ∃ t, exec c s = .next t ∧ AnsweredOnly s t time 0 .malformed [] ∧ t.mgmt = s.mgmt) ∧
    (1 ≤ r.dlcCode.val → (∀ m, minimumDlc code.toNat = some m → r.dlcCode.val < m) →
      ∃ t, exec c s = .next t ∧ AnsweredOnly s t time code.toNat .malformed [] ∧ t.mgmt = s.mgmt)

/-- R181, cases 3 and 4. Byte 2 of a BUSY reply to a FAULT_ACK is log 30. -/
def Obligations.RequestsMeetCaptureAndRestart : Prop :=
  ∀ (c : Instr) (s : State) (time : Time) (code : Byte) (r : ReqFrame) (m : Nat),
    c.request = some (time, code, r) → s.Ready → s.tLink.error ≠ .busOff →
    minimumDlc code.toNat = some m → m ≤ r.dlcCode.val →
    (s.mgmt.capture ≠ none → code.toNat ≠ 0x01 →
      ∃ t, exec c s = .next t ∧ AnsweredOnly s t time code.toNat .busy [] ∧ t.mgmt = s.mgmt) ∧
    (s.mgmt.capture = none ∨ code.toNat = 0x01 → s.mgmt.restart ≠ none →
      ∃ t, exec c s = .next t ∧ HeardOnT s t time ∧ SameControl s t ∧ t.mail = s.mail ∧ t.tables = s.tables ∧
        t.faults = s.heardFaults ∧ t.mgmt = s.mgmt)

/-- R186 and the layout of section 13.2: answered in every operating state, and while a zero capture is in flight. -/
def Obligations.StatusQueryReportsStateAndTables : Prop :=
  ∀ (s : State) (time : Time) (r : ReqFrame),
    s.Ready → s.tLink.error ≠ .busOff → s.mgmt.restart = none → 1 ≤ r.dlcCode.val →
    ∃ (t : State) (bits : Nat), exec (.statusQuery time 0x01 r) s = .next t ∧ t.mgmt = s.mgmt ∧
      (∀ id : TableId, bits / 4 ^ (id.toNat - 1) % 4 = (s.table id).state.code) ∧ bits < 2 ^ 20 ∧
      AnsweredOnly s t time 0x01 .done [byte1 s.mode.op.code, byte1 bits, byte1 (bits / 256 : Nat),
        byte1 (bits / 65536 : Nat), byte1 s.mode.cause.code, byte1 (if s.mgmt.capture.isSome then 1 else 0)]

/-- R168: the outcome of ENTER_SETUP in each operating state. -/
def Obligations.EnterSetupFollowsTheOperatingState : Prop :=
  ∀ (s : State) (time : Time) (r : ReqFrame), s.Takes r 1 →
    let stationary := s.motion.record.standstill = true ∧ s.shown park = 1 ∧ s.gear.dirState = .n
    (s.mode.op = .setup →
      ∃ t, exec (.enterSetup time r) s = .next t ∧ AnsweredOnly s t time 0x02 .done [] ∧ t.mgmt = s.mgmt) ∧
    (s.mode.op = .unloaded ∨ s.mode.op = .run ∧ stationary →
      ∃ t, exec (.enterSetup time r) s = .next t ∧ AnsweredToo s t time 0x02 [] ∧ t.intake = s.intake ∧
        t.mode = { s.mode with op := .setup, runTimer := none } ∧ t.tables = s.tables ∧ t.mgmt = s.mgmt) ∧
    (s.mode.op = .run → ¬ stationary →
      ∃ t, exec (.enterSetup time r) s = .next t ∧ AnsweredOnly s t time 0x02 .notStationary [] ∧ t.mgmt = s.mgmt) ∧
    (s.mode.op = .degraded ∨ s.mode.op = .safeStop ∨ s.mode.op = .latched →
      ∃ t, exec (.enterSetup time r) s = .next t ∧ AnsweredOnly s t time 0x02 .refusedState [] ∧ t.mgmt = s.mgmt)

/-- R169, R172: the conditions of LEAVE_SETUP; with no cause present the part stays in RUN (R170). -/
def Obligations.LeaveSetupNeedsTablesSupervisorAndNeutral : Prop :=
  ∀ (s : State) (time : Time) (r : ReqFrame), s.Takes r 1 →
    let ready := (∀ id : TableId, (s.table id).state = .committed) ∧ s.supervisor.tripped = false ∧
      s.intake.record.direction = .n
    (s.mode.op ≠ .setup →
      ∃ t, exec (.leaveSetup time r) s = .next t ∧ AnsweredOnly s t time 0x03 .refusedState [] ∧ t.mgmt = s.mgmt) ∧
    (s.mode.op = .setup → ¬ ready →
      ∃ t, exec (.leaveSetup time r) s = .next t ∧ AnsweredOnly s t time 0x03 .notReady [] ∧ t.mgmt = s.mgmt) ∧
    (s.mode.op = .setup → ready →
      ∃ t, exec (.leaveSetup time r) s = .next t ∧ AnsweredToo s t time 0x03 [] ∧ t.intake = s.intake ∧
        t.tables = s.tables ∧ t.mgmt = s.mgmt ∧
        (¬ SafeStopCause s → ¬ DegradedCause s →
          t.mode = { s.mode with op := .run, runTimer := some (t.now + 600000 * Config.msTicks) }))

/-- R183: SELECT_TABLE and READ_WORDS. -/
def Obligations.SelectAndReadMoveTheCursor : Prop :=
  ∀ (s : State) (time : Time) (r : ReqFrame),
    (s.Takes r 3 →
      let id := reqByte 0x10 r 1
      let word := reqByte 0x10 r 2
      ((∀ tb : TableId, tb.toNat ≠ id) →
        ∃ t, exec (.selectTable time r) s = .next t ∧ AnsweredOnly s t time 0x10 .badTableId [] ∧ t.mgmt = s.mgmt) ∧
      (∀ tb : TableId, tb.toNat = id → tb.size ≤ word →
        ∃ t, exec (.selectTable time r) s = .next t ∧ AnsweredOnly s t time 0x10 .outOfRange [] ∧ t.mgmt = s.mgmt) ∧
      (∀ tb : TableId, tb.toNat = id → word < tb.size →
        ∃ t, exec (.selectTable time r) s = .next t ∧ AnsweredOnly s t time 0x10 .done [byte1 id, byte1 word] ∧
          t.mgmt = { s.mgmt with cursor := some ⟨tb, word⟩ })) ∧
    (s.Takes r 1 →
      (s.mgmt.cursor = none →
        ∃ t, exec (.readWords time r) s = .next t ∧ AnsweredOnly s t time 0x12 .badCursor [] ∧ t.mgmt = s.mgmt) ∧
      (∀ c, s.mgmt.cursor = some c → c.table.size ≤ c.word →
        ∃ t, exec (.readWords time r) s = .next t ∧ AnsweredOnly s t time 0x12 .outOfRange [] ∧ t.mgmt = s.mgmt) ∧
      (∀ c, s.mgmt.cursor = some c → c.word < c.table.size →
        ∃ t, exec (.readWords time r) s = .next t ∧
          AnsweredOnly s t time 0x12 .done (wordBytes ((s.table c.table).loaded.getD c.word 0)) ∧
          t.mgmt = { s.mgmt with cursor := some ⟨c.table, c.word + 1⟩ }))

/-- R182, R184: the four failures in their order, and the write. -/
def Obligations.WriteWordsWritesTheCursorWord : Prop :=
  ∀ (s : State) (time : Time) (r : ReqFrame), s.Takes r 8 →
    let refused := fun res => ∃ t, exec (.writeWords time r) s = .next t ∧ AnsweredOnly s t time 0x11 res [] ∧
      t.mgmt = s.mgmt
    (s.mode.op ≠ .setup → refused .refusedState) ∧
    (s.mode.op = .setup → s.mgmt.cursor = none → refused .badCursor) ∧
    (s.mode.op = .setup → ∀ c, s.mgmt.cursor = some c → reqByte 0x11 r 1 ≠ c.word % 256 → refused .badCursor) ∧
    (s.mode.op = .setup → ∀ c, s.mgmt.cursor = some c → reqByte 0x11 r 1 = c.word % 256 → c.table.size ≤ c.word →
      refused .outOfRange) ∧
    (s.mode.op = .setup → ∀ c, s.mgmt.cursor = some c → reqByte 0x11 r 1 = c.word % 256 → c.word < c.table.size →
      ∃ t, exec (.writeWords time r) s = .next t ∧
        AnsweredToo s t time 0x11 [byte1 c.table.toNat, byte1 (c.word + 1 : Nat)] ∧
        t.mgmt = { s.mgmt with cursor := some ⟨c.table, c.word + 1⟩ } ∧ t.mode = s.mode ∧
        t.tables = s.tables.put c.table ⟨.uncommitted, (s.table c.table).loaded.set c.word
          (wordOf (reqByte 0x11 r 2) (reqByte 0x11 r 3) (reqByte 0x11 r 4) (reqByte 0x11 r 5) (reqByte 0x11 r 6)
            (reqByte 0x11 r 7))⟩ ∧
        ((s.table c.table).state ≠ .committed → SameControl s t ∧ t.faults = s.heardFaults))

/-- R182, R185: the refusals in their order, and the commit; the CRC, and the checks of each table's own rule in their order
(R10, R20, R38, R53, R63, R96, R130, R143, R164, R174). -/
def Obligations.CommitTableChecksCrcAndContent : Prop :=
  (∀ (s : State) (time : Time) (r : ReqFrame), s.Takes r 4 →
    let id := reqByte 0x13 r 1
    let crc := reqByte 0x13 r 2 + 256 * reqByte 0x13 r 3
    let refused := fun res data => ∃ t, exec (.commitTable time r) s = .next t ∧ AnsweredOnly s t time 0x13 res data ∧
      t.mgmt = s.mgmt
    (s.mode.op ≠ .setup → refused .refusedState []) ∧
    (s.mode.op = .setup → (∀ tb : TableId, tb.toNat ≠ id) → refused .badTableId []) ∧
    (s.mode.op = .setup → ∀ tb : TableId, tb.toNat = id → (crcOf (s.table tb).loaded).toNat ≠ crc →
      refused .crcMismatch []) ∧
    (s.mode.op = .setup → ∀ tb : TableId, tb.toNat = id → (crcOf (s.table tb).loaded).toNat = crc →
      (∀ i, commitCheck tb (s.inUse .intakeMap) (s.table tb).loaded = some i → refused .inconsistent [byte1 i]) ∧
      (commitCheck tb (s.inUse .intakeMap) (s.table tb).loaded = none →
        ∃ t, exec (.commitTable time r) s = .next t ∧ AnsweredToo s t time 0x13 [byte1 id] ∧ t.mgmt = s.mgmt ∧
          t.mode = s.mode ∧ t.tables = s.tables.put tb ⟨.committed, (s.table tb).loaded⟩))) ∧
  CrcLaw ∧ ∀ (id : TableId) (map ws : List TWord), FirstFailure (commitChecks id map ws) (commitCheck id map ws)

/-- R179 and its selector byte (R181). Byte 2 of the MALFORMED reply is log 30. -/
def Obligations.FaultAckRemovesStoredEntries : Prop :=
  ∀ (s : State) (time : Time) (r : ReqFrame), s.Takes r 4 →
    let f := s.heardFaults
    let sel := reqByte 0x20 r 1
    let named := fun e : FaultEntry => e.kind.code == reqByte 0x20 r 2 && e.index == reqByte 0x20 r 3
    (1 < sel → ∃ t, exec (.faultAck time r) s = .next t ∧ AnsweredOnly s t time 0x20 .malformed [] ∧ t.mgmt = s.mgmt) ∧
    (sel ≤ 1 → ∃ t, exec (.faultAck time r) s = .next t ∧ HeardOnT s t time ∧ SameControl s t ∧
      t.tables = s.tables ∧ t.mgmt = s.mgmt ∧ t.faults.position = f.position ∧
      t.faults.overflow = (f.overflow && !t.faults.entries.isEmpty) ∧
      (sel = 0 → t.faults.entries = f.entries.filter (fun e => !e.stored) ∧
        t.Replied 0x20 .done [byte1 t.faults.entries.length]) ∧
      (∀ e, sel = 1 → f.entries.find? named = some e → e.stored = true →
        t.faults.entries = f.entries.filter (fun x => !named x) ∧
        t.Replied 0x20 .done [byte1 t.faults.entries.length]) ∧
      (∀ e, sel = 1 → f.entries.find? named = some e → e.stored = false →
        t.faults.entries = f.entries ∧ t.Replied 0x20 .refusedState [byte1 t.faults.entries.length]) ∧
      (sel = 1 → f.entries.find? named = none →
        t.faults.entries = f.entries ∧ t.Replied 0x20 .done [byte1 t.faults.entries.length]))

/-- R187, the acceptance. In the model an undefined selection is MALFORMED in every operating state (log 24). -/
def Obligations.CaptureZeroIsAcceptedInSetup : Prop :=
  ∀ (s : State) (time : Time) (r : ReqFrame), s.Takes r 2 →
    let sel := reqByte 0x30 r 1
    (sel = 0 ∨ 3 < sel →
      ∃ t, exec (.captureZero time r) s = .next t ∧ AnsweredOnly s t time 0x30 .malformed [] ∧ t.mgmt = s.mgmt) ∧
    (1 ≤ sel → sel ≤ 3 → s.mode.op ≠ .setup →
      ∃ t, exec (.captureZero time r) s = .next t ∧ AnsweredOnly s t time 0x30 .refusedState [] ∧ t.mgmt = s.mgmt) ∧
    (1 ≤ sel → sel ≤ 3 → s.mode.op = .setup →
      ∃ t, exec (.captureZero time r) s = .next t ∧ AnsweredOnly s t time 0x30 .inProgress [] ∧
        t.mgmt = { s.mgmt with
          capture := some ⟨decide (sel = 1 ∨ sel = 3), decide (sel = 2 ∨ sel = 3), 0, 0, 0, 0, 0⟩ })

/-- R187, items 1 to 4, at the end of a cycle (R119), whose last measurement brings its edges (log 17). -/
def Obligations.ZeroCaptureAveragesEightResults : Prop :=
  ∀ (c : Instr) (s : State) (d : Draft) (x : Capture), s.resetting = none → CycleEnds c s d → s.mgmt.capture = some x →
    let taken := fun (selected : Bool) (count : Nat) (q : Option Nat) =>
      if selected = true ∧ count < 8 then q else none
    let l := taken x.selL x.countL (d.included .l)
    let r := taken x.selR x.countR (d.included .r)
    let sumL := x.sumL + l.getD 0
    let sumR := x.sumR + r.getD 0
    let countL := x.countL + (if l.isSome then 1 else 0)
    let countR := x.countR + (if r.isSome then 1 else 0)
    let full := (x.selL = true → countL = 8) ∧ (x.selR = true → countR = 8)
    let w := wordAt s.tables.hitch.loaded 0
    let q0L : Nat := if x.selL then max 1 (min 65534 (sumL / 8)) else halfOf w 2
    let q0R : Nat := if x.selR then max 1 (min 65534 (sumR / 8)) else halfOf w 4
    ∃ t, exec c s = .next t ∧
      (full → t.mgmt = { s.mgmt with capture := none } ∧
        t.tables = { s.tables with hitch :=
          ⟨.uncommitted, s.tables.hitch.loaded.set 0 (wordOfHalves (halfOf w 0) q0L q0R)⟩ } ∧
        t.Replied 0x30 .done (bytes2 q0L ++ bytes2 q0R)) ∧
      (¬ full → x.cycles + 1 = 24 → t.mgmt = { s.mgmt with capture := none } ∧ t.tables = s.tables ∧
        t.Replied 0x30 .captureInvalid []) ∧
      (¬ full → x.cycles + 1 ≠ 24 → t.tables = s.tables ∧ t.mail = s.mail ∧
        t.mgmt = { s.mgmt with capture := some ⟨x.selL, x.selR, sumL, sumR, countL, countR, x.cycles + 1⟩ })

/-- R188, the acceptance. -/
def Obligations.RestartNeedsStandstillAndNeutral : Prop :=
  ∀ (s : State) (time : Time) (r : ReqFrame), s.Takes r 1 →
    (s.motion.record.standstill = true ∧ s.gear.dirState = .n →
      ∃ t, exec (.restart time r) s = .next t ∧ AnsweredOnly s t time 0x3F .done [] ∧
        t.mgmt = { s.mgmt with restart := some (t.now + 100 * Config.msTicks) }) ∧
    (¬(s.motion.record.standstill = true ∧ s.gear.dirState = .n) →
      ∃ t, exec (.restart time r) s = .next t ∧ AnsweredOnly s t time 0x3F .notStationary [] ∧ t.mgmt = s.mgmt)

/-! ### Transmission and links (chapter 10) -/

/-- R163: the lowest identifier is offered; the mailbox when the queue head shares it. -/
def Obligations.OfferTakesTheLowestIdentifier : Prop :=
  ∀ (s : State) (l : Link), s.resetting = none →
    ((s.link l).error = .busOff ∨ (s.link l).offer ≠ none → exec (.transmitOffer l) s = .next s) ∧
    ((∀ src f, ¬ Offered s l src f) → exec (.transmitOffer l) s = .next s) ∧
    ((s.link l).error ≠ .busOff → (s.link l).offer = none → (∃ src f, Offered s l src f) →
      ∃ src f restartDone, Offered s l src f ∧ (∀ src' f', Offered s l src' f' → f.ident ≤ f'.ident) ∧
        (src = .queue → ∀ id f', Offered s l (.mailbox id) f' → f.ident < f'.ident) ∧
        restartDone = (src == .mailbox .reply && f.data == [0x3F, 0, 0, 0, 0, 0, 0, 0] && s.mgmt.restart.isSome) ∧
        exec (.transmitOffer l) s = .next (s.setLink l { s.link l with offer := some ⟨f, src, false, restartDone⟩ }))

/-- R157, R161 to R163, R188: a frame of this controller transmitted and acknowledged. -/
def Obligations.TransmittedFrameLeavesItsPlace : Prop :=
  ∀ (s : State) (l : Link) (o : Offer), s.Ready → (s.link l).offer = some o → (s.link l).error ≠ .busOff →
    (∀ id, o.source = .mailbox id → id.link = l) →
    ∃ t, exec (.txSuccess l) s = .next t ∧ (t.link l).txCount = (s.link l).txCount - 1 ∧
      (t.link l).rxCount = (s.link l).rxCount ∧ (t.link l).offer = none ∧
      (t.link l).error = (if (s.link l).txCount - 1 < 128 ∧ (s.link l).rxCount < 128 then .active else .passive) ∧
      (∀ id, o.source = .mailbox id → t.mail.get id = ⟨(s.mail.get id).content, o.rewritten⟩ ∧
        (t.link l).queue = (s.link l).queue) ∧
      (o.source = .queue → (t.link l).queue = (s.link l).queue.tail) ∧
      (∀ id, o.source ≠ .mailbox id → id ≠ .shiftRecord → t.mail.get id = s.mail.get id) ∧
      (t.link l.other).queue = (s.link l.other).queue ∧ t.tables = s.tables ∧
      (if o.restartDone = true ∧ s.mgmt.restart ≠ none then t.resetting = some .management ∧ t.Stopped ∧ t.neut = false
        else t.resetting = none ∧ t.mgmt = s.mgmt ∧ t.intake = s.intake)

/-- R157 to R159, R163: an error while transmitting, a lost arbitration, and the recovery from BUS_OFF. Outside BUS_OFF
there is nothing to recover from (log 3). -/
def Obligations.FailedTransmissionKeepsItsFrame : Prop :=
  ∀ (s : State) (l : Link), s.Ready →
    (∀ o, (s.link l).offer = some o → (s.link l).error ≠ .busOff →
      ∃ t, exec (.txError l) s = .next t ∧ (t.link l).offer = none ∧ (t.link l).queue = (s.link l).queue ∧
        (t.link l).rxCount = (s.link l).rxCount ∧ (∀ id, id.link = l → id ≠ .shiftRecord → t.mail.get id = s.mail.get id) ∧
        (if 255 < (s.link l).txCount + 8
          then (t.link l).txCount = 255 ∧ (t.link l).error = .busOff ∧
            (l = .v → t.mode.busOffTimer = some (s.now + 500 * Config.msTicks))
          else (t.link l).txCount = (s.link l).txCount + 8 ∧ (t.link l).error =
            if (s.link l).txCount + 8 < 128 ∧ (s.link l).rxCount < 128 then .active else .passive) ∧
        t.intake = s.intake ∧ t.tables = s.tables ∧ t.mgmt = s.mgmt) ∧
    exec (.arbitrationLost l) s = .next (s.setLink l { s.link l with offer := none }) ∧
    ((s.link l).error = .busOff →
      ∃ t, exec (.busOffRecovery l) s = .next t ∧ (t.link l).txCount = 0 ∧ (t.link l).rxCount = 0 ∧
        (t.link l).error = .active ∧ (t.link l).queue = (s.link l).queue ∧
        (∀ id, id ≠ .shiftRecord → t.mail.get id = s.mail.get id) ∧
        (l = .v → t.mode.busOffTimer = none ∧ t.mode.busOffCause = false) ∧
        t.intake = s.intake ∧ t.tables = s.tables ∧ t.mgmt = s.mgmt) ∧
    ((s.link l).error ≠ .busOff → exec (.busOffRecovery l) s = .next s)

/-- R160, R162: the silence times and the drop timer. The step from OK straight to FAILED is log 19; a drop timer that
does not run has no expiry (log 3). -/
def Obligations.LinkTimersRaiseAndEndTheirFaults : Prop :=
  ∀ (s : State) (l : Link), s.Ready →
    (∀ t0, (s.link l).silence = .ok → (s.link l).silenceStart = some t0 →
      ∃ t, exec (.linkSuspectTimeout l) s = .next t ∧ t.now = max s.now (t0 + 200 * Config.msTicks) ∧
        (t.link l).silence = .suspect ∧ (t.link l).silenceStart = some t0 ∧ (t.link l).error = (s.link l).error ∧
        (s.faults.raised .linkSuspect l.index (some (t.now + 1000 * Config.msTicks))).Holds .linkSuspect l.index
          t.faults ∧
        t.intake = s.intake ∧ t.tables = s.tables) ∧
    (∀ t0, (s.link l).silence = .suspect → (s.link l).silenceStart = some t0 →
      ∃ t, exec (.linkFailedTimeout l) s = .next t ∧ t.now = max s.now (t0 + 1000 * Config.msTicks) ∧
        (t.link l).silence = .failed ∧ (t.link l).silenceStart = some t0 ∧ (t.link l).error = (s.link l).error ∧
        (let raised := s.faults.raised .linkFailed l.index (some (t.now + 1000 * Config.msTicks));
          raised.Holds .linkFailed l.index t.faults ∧ raised.Holds .linkSuspect l.index t.faults) ∧
        t.intake = s.intake ∧ t.tables = s.tables) ∧
    (∀ t0, (s.link l).silence = .ok → (s.link l).silenceStart = some t0 →
      ∃ t, exec (.linkFailedTimeout l) s = .next t ∧ t.now = max s.now (t0 + 1000 * Config.msTicks) ∧
        (t.link l).silence = .failed ∧ (t.link l).silenceStart = some t0 ∧ (t.link l).error = (s.link l).error ∧
        s.faults.Raises .linkSuspect l.index t.faults ∧ s.faults.Raises .linkFailed l.index t.faults ∧
        t.intake = s.intake ∧ t.tables = s.tables) ∧
    (∀ x, (s.link l).dropTimer = some x → exec (.passageDropTimeout l) s =
      .next { (s.expire (some x)).setLink l { s.link l with dropTimer := none } with
        faults := s.faults.cleared .passageDrop l.index }) ∧
    ((s.link l).dropTimer = none → exec (.passageDropTimeout l) s = .next s)

/-- R170, R172: a SAFE_STOP cause that appears in RUN or DEGRADED, and what a change of the operating state brings. -/
def Obligations.SafeStopCauseStopsTheDrive : Prop :=
  (∀ s : State, s.Ready →
    (∀ x, s.mode.busOffTimer = some x → ∃ t, exec .busOffTimerExpiry s = .next t ∧ t.now = max s.now x ∧
      t.mode.busOffTimer = none ∧ t.mode.busOffCause = true ∧ t.mode.cause = s.mode.cause ∧ t.intake = s.intake ∧
      t.tables = s.tables ∧ t.vLink = s.vLink ∧
      (s.mode.op = .run ∨ s.mode.op = .degraded → Stops s t) ∧
      (s.mode.op = .unloaded ∨ s.mode.op = .setup ∨ s.mode.op = .latched → t.mode.op = s.mode.op)) ∧
    (∀ t0, s.vLink.silence = .suspect → s.vLink.silenceStart = some t0 →
      s.mode.op = .run ∨ s.mode.op = .degraded →
      ∃ t, exec (.linkFailedTimeout .v) s = .next t ∧ Stops s t) ∧
    (∀ (c : Instr) (i : Fin 16), (i = brakeL ∧ (s.slot brakeR).state = .substituted ∨
        i = brakeR ∧ (s.slot brakeL).state = .substituted) →
      (c = .slotTimeout i ∧ ((s.slot i).state = .waiting ∨
          (s.slot i).state = .fresh ∧ holdMsOf (s.inUse .slotTable) i = 0) ∨
        c = .slotHoldExpiry i ∧ (s.slot i).state = .held) →
      s.mode.op = .run ∨ s.mode.op = .degraded →
      ∃ t, exec c s = .next t ∧ Stops s t)) ∧
  EntryLaw

/-! ### Slots, motion and selector timers (chapters 1 to 3) -/

/-- R13, R14: the timeout and the hold time of a slot. -/
def Obligations.SlotTimersHoldThenSubstitute : Prop :=
  ∀ (s : State) (i : Fin 16), s.resetting = none →
    let x := s.slot i
    let hold := holdMsOf (s.inUse .slotTable) i * Config.msTicks
    (x.state = .fresh → 0 < hold →
      ∃ t, exec (.slotTimeout i) s = .next t ∧ t.now = max s.now (x.timer.getD 0) ∧
        t.slot i = ⟨.held, x.last, some (t.now + hold)⟩ ∧ (∀ j, j ≠ i → t.slot j = s.slot j) ∧
        t.intake.record = s.intake.record ∧ t.tables = s.tables ∧ t.mgmt = s.mgmt) ∧
    (x.state = .fresh ∧ hold = 0 ∨ x.state = .waiting →
      ∃ t, exec (.slotTimeout i) s = .next t ∧ t.now = max s.now (x.timer.getD 0) ∧
        t.slot i = ⟨.substituted, x.last, none⟩ ∧ (∀ j, j ≠ i → t.slot j = s.slot j) ∧
        (s.faults.raised .signalLost i.val (some (t.now + 1000 * Config.msTicks))).Holds .signalLost i.val t.faults ∧
        t.intake.record = s.intake.record ∧ t.tables = s.tables ∧
        t.mgmt = s.mgmt) ∧
    (x.state = .held →
      ∃ t, exec (.slotHoldExpiry i) s = .next t ∧ t.now = max s.now (x.timer.getD 0) ∧
        t.slot i = ⟨.substituted, x.last, none⟩ ∧ (∀ j, j ≠ i → t.slot j = s.slot j) ∧
        (s.faults.raised .signalLost i.val (some (t.now + 1000 * Config.msTicks))).Holds .signalLost i.val t.faults ∧
        t.intake.record = s.intake.record ∧ t.tables = s.tables ∧
        t.mgmt = s.mgmt)

/-- R8, R23 to R28, R31, R33 to R35: one recomputation, full or refresh, an evaluation of coupled braking, what an update of
the Motion Record tells, and what an announcement of slots brings. The events are taken in any order (R94, log 5). -/
def Obligations.RecomputationFollowsSourceAndSlipRules : Prop :=
  (∀ (full : Bool) (s : State),
    let r := s.usable radar
    let f := s.usable wheelFront
    let w := s.usable wheelRear
    let freed := s.fac.state = .released ∧ f = true
    ∃ m : MotionRecord, s.recompute full = { s with motion := { s.motion with record := m } } ∧
      (r = true → m.source = .radar ∧ m.vg = s.shown radar) ∧
      (r = false → freed → m.source = .frontFree ∧ m.vg = s.shown wheelFront) ∧
      (r = false → ¬ freed → f = true → w = true →
        m.source = .axleMin ∧ m.vg = min (s.shown wheelFront) (s.shown wheelRear)) ∧
      (r = false → ¬ freed → f = false → w = true → m.source = .rearOnly ∧ m.vg = s.shown wheelRear) ∧
      (r = false → ¬ freed → w = false → m.source = .none ∧ m.vg = 0) ∧
      m.vw = s.shown wheelRear ∧
      (m.slipValid = true ↔ w = true ∧ (m.source = .radar ∨ m.source = .frontFree ∨ m.source = .axleMin)) ∧
      (m.vw < 50 ∨ m.slipValid = false → m.slip = 0) ∧
      (50 ≤ m.vw → m.slipValid = true → m.slip = max (-1000) (min 1000 (((m.vw - m.vg) * 1000).tdiv m.vw))) ∧
      (m.slipValid = false → m.slipF = 0) ∧
      (m.slipValid = true → full = false → m.slipF = s.motion.record.slipF) ∧
      (m.slipValid = true → full = true →
        m.slipF = s.motion.record.slipF + (m.slip - s.motion.record.slipF).tdiv 8) ∧
      m.standstill = s.motion.record.standstill ∧ m.coupled = s.motion.record.coupled) ∧
  CoupledLaw ∧ MotionUpdateLaw ∧ SlotNewsLaw ∧ SettledLaw

/-- R31, R32, R171: the expiry of the standstill timer, the evaluation, and the exit from SAFE_STOP. A timer that does not
run has no expiry (log 3). -/
def Obligations.StandstillIsTimedAndEndsSafeStop : Prop :=
  (∀ s : State,
    let holds := s.motion.record.vg < 20 ∧ s.motion.record.vw < 20 ∧ s.shown outSpeed < 10 ∧
      s.motion.record.source ≠ .none
    let timed := s.motion.timer ≠ none ∨ s.motion.record.standstill = true
    (holds → timed → s.evalStandstill = s) ∧
    (holds → ¬ timed → s.evalStandstill =
      { s with motion := { s.motion with timer := some (s.now + 500 * Config.msTicks) } }) ∧
    (¬ holds → s.evalStandstill =
      { s with motion := ⟨{ s.motion.record with standstill := false }, none⟩ })) ∧
  (∀ (s : State) (x : Time), s.Ready → s.motion.timer = some x → s.motion.record.standstill = false →
    (s.mode.op = .unloaded ∨ s.mode.op = .setup ∨ s.mode.op = .latched → s.fac.state = .engaged →
      ∃ t, exec .standstillTimerExpiry s = .next t ∧ t.now = max s.now x ∧
        t.motion = ⟨{ s.motion.record with standstill := true }, none⟩ ∧ t.mode = s.mode ∧ t.intake = s.intake ∧
        t.tables = s.tables) ∧
    (s.mode.op = .safeStop → s.fac.state = .engaged → s.intake.record.direction = .n → ¬ SafeStopCause s →
      ¬ DegradedCause s →
      ∃ t, exec .standstillTimerExpiry s = .next t ∧ t.mode.op = .run ∧
        t.mode.runTimer = some (t.now + 600000 * Config.msTicks) ∧ t.mode.stops = s.mode.stops ∧ t.intake = s.intake ∧
        t.tables = s.tables)) ∧
  ∀ s : State, s.motion.timer = none → s.resetting = none → exec .standstillTimerExpiry s = .next s

/-- R52, R54, R56: the shuttle pending time, the hold-off and T_defer. A timer that does not run has no expiry (log 3). -/
def Obligations.SelectorTimersPass : Prop :=
  ∀ s : State, s.resetting = none →
    (∀ x, s.gear.shuttle = some x → exec .shuttlePendingExpiry s =
      .next { s.expire x.timer with gear := { s.gear with shuttle := none, flag := .dropped } }) ∧
    (s.gear.shuttle = none → exec .shuttlePendingExpiry s = .next s) ∧
    (∀ x, s.gear.holdOff = some x → exec .holdOffExpiry s =
      .next { s.expire (some x) with gear := { s.gear with holdOff := none } }) ∧
    (s.gear.holdOff = none → exec .holdOffExpiry s = .next s) ∧
    (∀ x, s.gear.deferral = .running x → exec .deferralTimerExpiry s =
      .next { s.expire x with gear := { s.gear with deferral := .expired } }) ∧
    ((∀ x, s.gear.deferral ≠ .running x) → exec .deferralTimerExpiry s = .next s)

/-! ### Shift Engine, Fill Arbiter and front axle (chapters 4 to 6) -/

/-- R59 to R61, R65 to R77, R79 to R81, R84, R85, R166: a clutch step with no order in flight, and one with an order in
flight. -/
def Obligations.IdleClutchStepHoldsTheGear : Prop :=
  (∀ s : State, s.Ready → s.shift.order = none →
    ∃ t, exec .clutchStep s = .next t ∧
      t = { s.expire s.shift.timer with
        shift := ⟨none, t.shift.commands, s.shift.rolling + 1,
          some (s.shift.timer.getD t.now + 10 * Config.msTicks)⟩
        mail := { s.mail with clutchA := t.mail.clutchA, clutchB := t.mail.clutchB }
        vLink := { s.vLink with offer := t.vLink.offer }, neut := t.neut } ∧
      (∀ c : Fin 10, c.val < 7 → t.command c =
        if ∃ g, s.gear.current = some g ∧
            (c.val = (gearEntry s.gearWords g).speed ∨ c.val = 4 + (gearEntry s.gearWords g).range)
        then (s.prof c.val).pMax else 0) ∧
      (let engaged := fun (d : DirState) (c : Nat) =>
          if s.gear.dirState = d ∧ s.mode.op ≠ .unloaded ∧ s.mode.op ≠ .setup
          then min (s.prof c).pMax (pedalLimit (s.prof c).pMax (s.shown clutchPedal)) else 0;
        t.command 7 = engaged .f 7 ∧ t.command 8 = engaged .r 8) ∧
      t.command 9 = s.facCommand ∧
      (t.neut = true ↔ t.command 7 = 0 ∧ t.command 8 = 0) ∧
      t.mail.clutchA = ⟨some (((List.finRange 10).take 7).map (fun c => byte1 (t.command c / 10 : Nat)) ++
        [t.shift.rolling]), true⟩ ∧
      t.mail.clutchB = ⟨some ([byte1 (t.command 7 / 10 : Nat), byte1 (t.command 8 / 10 : Nat),
        byte1 (t.command 9 / 10 : Nat), byte1 0, byte1 (gearCode s.gear.current), byte1 (gearCode s.gear.target),
        byte1 s.mode.op.code, t.shift.rolling]), true⟩) ∧
  OrderStepLaw ∧ OrderEndsLaw ∧ ClutchStepLaw

/-- R50, R65, R84: the clutch step on which WAIT_SUPPLY reaches T_fill_wait; no front axle request waits. An order in
flight after it is a new one, which the decision at the order end has issued (R45, R50). -/
def Obligations.FillWaitTimeoutWithdrawsTheOrder : Prop :=
  (∀ (s : State) (o : Order), s.Ready → s.shift.order = some o → o.phase = .waitSupply → o.dumping = none →
    o.kind ≠ .release → o.ending = false → s.arbiter.facWait = false → s.clutchHdr.fillWaitMs / 10 ≤ o.count + 1 →
    ∃ t, exec .fillWaitTimeout s = .next t ∧
      t.mail.shiftRecord = ⟨some ([byte1 (gearCode o.fromGear), byte1 (gearCode o.toGear), byte1 o.kind.code, byte1 4] ++
        bytes2 (min 65535 (o.duration + 1) : Nat) ++ [byte1 (observationFlags o.flare o.tieUp), byte1 0]), true⟩ ∧
      t.gear.holdOff = some (t.now + (scheduleHeader (s.inUse .shiftSchedule)).holdOffMs * Config.msTicks) ∧
      (t.shift.order = none → t.arbiter = { s.arbiter with shiftWait := none }) ∧
      (∀ n, t.shift.order = some n → n.duration = 0 ∧ n.count = 0 ∧ n.merged = none ∧
        t.arbiter.shiftWait = if n.phase = .waitSupply then some n.oncoming.length else none) ∧
      (s.mode.op ≠ .run → s.mode.op ≠ .setup → t.shift.order = none) ∧
      (o.kind.isSwap = true → s.gear.clearAtEnd = false → s.gear.dirState ≠ .n →
        (s.mode.op = .run → s.intake.record.direction = s.gear.dirState ∨ s.intake.record.direction = .n) →
        t.gear.target = o.fromGear ∧
          (s.mode.op ≠ .run ∨ s.intake.record.direction = s.gear.dirState → t.shift.order = none)) ∧
      (o.kind.isSwap = false → s.mode.op ≠ .run → s.motion.record.coupled = false → t.gear.target = s.gear.target) ∧
      (o.kind.isSwap = true ∨ o.kind = .free → t.gear.current = if s.gear.clearAtEnd then none else o.fromGear) ∧
      t.shift.rolling = s.shift.rolling + 1 ∧ t.tables = s.tables ∧ t.mode = s.mode ∧ t.fac = s.fac ∧
      t.motion = s.motion ∧ t.intake = s.intake ∧ t.faults = s.faults) ∧
  EndReportLaw ∧ OrderEndLaw

/-- R70: the clutch step on which SYNC reaches T_sync_max (log 9); in a SWAP2 the model raises the speed clutch's fault first
(log 31). -/
def Obligations.SyncTimeoutForcesLock : Prop :=
  ∀ (s : State) (o : Order), s.Ready → s.shift.order = some o → o.phase = .sync → o.kind.isSwap = true →
    o.merged = none → o.partEnd = none → o.freed = false → s.shown clutchPedal < 500 →
    s.clutchHdr.syncWindow <
      (s.shown outSpeed - (s.shown engSpeed * o.ratioTo).tdiv 4096).natAbs →
    s.clutchHdr.syncMaxMs / 10 ≤ o.count + 1 →
    ∃ t o', exec .syncTimeout s = .next t ∧ t.shift.order = some o' ∧ o'.forced = true ∧ o'.phase = .lock ∧
      o'.count = 0 ∧ o'.kind = o.kind ∧ o'.fromGear = o.fromGear ∧ o'.toGear = o.toGear ∧
      o'.duration = min 65535 (o.duration + 1) ∧
      t.faults = o.oncoming.foldl
        (fun f d => f.raised .shiftSyncTimeout d.clutch (some (t.now + 1000 * Config.msTicks))) s.faults ∧
      t.shift.rolling = s.shift.rolling + 1 ∧ t.gear = s.gear ∧ t.arbiter = s.arbiter ∧ t.fac = s.fac ∧
      t.motion = s.motion ∧ t.intake = s.intake ∧ t.tables = s.tables ∧ t.mode = s.mode ∧ t.trailer = s.trailer

/-- R88, R89: a grant decision. -/
def Obligations.GrantDecisionServesTheShiftFirst : Prop :=
  ∀ s : State,
    let supply := (s.clutchHdr.supplyMin : Int) ≤ s.shown supplyPress
    let freeSlots := s.arbiter.count .free
    (¬ supply → s.decideFill = s) ∧
    (∀ n, s.arbiter.shiftWait = some n → freeSlots < n → s.decideFill = s) ∧
    (∀ n, supply → s.arbiter.shiftWait = some n → n ≤ freeSlots →
      s.decideFill.arbiter.shiftWait = none ∧ s.decideFill.arbiter.count .shift = s.arbiter.count .shift + n ∧
      (∀ o, s.shift.order = some o → o.phase = .waitSupply → s.decideFill.shift.order =
        some { o with phase := if o.engaging then .fill else .prepare, count := 0, driving := true }) ∧
      (s.arbiter.facWait = true → s.fac.state = .releaseWait →
        s.decideFill.fac.state = if n < freeSlots then .releaseFill else .releaseWait)) ∧
    (supply → s.arbiter.shiftWait = none → s.arbiter.facWait = true → s.fac.state = .releaseWait → 1 ≤ freeSlots →
      s.decideFill.fac.state = .releaseFill ∧ s.decideFill.arbiter.facWait = false ∧
      s.decideFill.arbiter.count .fac = s.arbiter.count .fac + 1 ∧ s.decideFill.shift = s.shift) ∧
    (s.arbiter.shiftWait = none → s.arbiter.facWait = false → s.decideFill = s)

/-- R104: the end of the pulse and the end of the release fill. -/
def Obligations.ReleaseFillEndsReleased : Prop :=
  ∀ s : State, s.Ready → s.Ok →
    (∀ x, s.fac.pulseTimer = some x → exec .facPulseEnd s =
      .next { s.expire (some x) with fac := { s.fac with fillKPa := s.fac.holdKPa, pulseTimer := none } }) ∧
    (∀ x, s.fac.fillTimer = some x → s.fac.dwell ≠ none → s.mode.op = .run → s.motion.record.coupled = false →
      s.intake.record.driveMode ≠ .on →
      ∃ t, exec .facFillEnd s = .next t ∧ t.now = max s.now x ∧ t.fac.state = .released ∧
        t.arbiter.count .fac = 0 ∧ t.fac.fillTimer = none ∧ t.fac.pulseTimer = none ∧ t.fac.dwell = s.fac.dwell ∧
        t.intake = s.intake ∧ t.tables = s.tables) ∧
    (s.fac.pulseTimer = none → exec .facPulseEnd s = .next s) ∧
    (s.fac.fillTimer = none → exec .facFillEnd s = .next s)

/-- R97 to R103, R105, R107: the dwell, hold and check timers, in every 4WD mode. A check timer that does not run has no
expiry (log 3). -/
def Obligations.FrontAxleTimersBringAnEvaluation : Prop :=
  ∀ s : State, s.Ready →
    let forced := s.motion.record.coupled = true ∨ s.mode.op ≠ .run ∨ s.intake.record.driveMode = .on
    let left := s.fac.state = .released
    let supply := (s.clutchHdr.supplyMin : Int) ≤ s.shown supplyPress
    (∀ (c : Instr) (x : Time) (fac : Fac),
      (c = .dwellExpiry ∧ s.fac.dwell = some x ∧ fac = { s.fac with dwell := none } ∨
        c = .brakeHoldExpiry ∧ s.fac.brakeHold = some x ∧ fac = { s.fac with brakeHold := none }) →
      let engages := ∃ t, exec c s = .next t ∧ t.now = max s.now x ∧
        t.fac = ⟨.engaged, 0, 0, none, none, some (t.now + s.axle.dwellMs * Config.msTicks), fac.brakeHold,
          if left then none else fac.check, if left then false else fac.noRelease⟩
      let stays := exec c s = .next { s.expire (some x) with fac := fac }
      (forced → s.fac.state = .engaged → stays) ∧
      (forced → s.fac.state ≠ .engaged → engages) ∧
      (¬ forced → s.ReleaseDemand → s.fac.state = .engaged → fac.dwell = none → fac.brakeHold = none →
        ∃ t, exec c s = .next t ∧ t.now = max s.now x ∧
          (t.fac.state = .releaseWait ∨ t.fac.state = .releaseFill) ∧
          (¬ supply → t.fac.state = .releaseWait) ∧
          (supply → s.arbiter.shiftWait = none → 1 ≤ s.arbiter.count .free → t.fac.state = .releaseFill) ∧
          t.fac.dwell = some (t.now + s.axle.dwellMs * Config.msTicks)) ∧
      (¬ forced → s.ReleaseDemand → s.fac.state ≠ .engaged ∨ fac.dwell ≠ none ∨ fac.brakeHold ≠ none → stays) ∧
      (¬ forced → s.EngageDemand → s.fac.state ≠ .engaged → fac.dwell = none → engages) ∧
      (¬ forced → s.EngageDemand → s.fac.state = .engaged ∨ fac.dwell ≠ none → stays) ∧
      (¬ forced → ¬ s.ReleaseDemand → ¬ s.EngageDemand → stays)) ∧
    (∀ x, s.fac.check = some x → exec .releaseCheckExpiry s =
      .next { s.expire (some x) with
        fac := { s.fac with check := none, noRelease := true }
        faults := s.faults.raised .facNoRelease 0 (some (max s.now x + 1000 * Config.msTicks)) }) ∧
    (s.fac.check = none → exec .releaseCheckExpiry s = .next s)

/-! ### Draft capture (chapter 7) -/

/-- R110, R111, R113, R114: a REF measurement ends valid, or fails by overrange or underrange. Outside a REF measurement
the two commands have no effect (log 3). -/
def Obligations.RefMeasurementGivesEdgesOrFails : Prop :=
  ∀ s : State, s.resetting = none →
    let d := s.draft
    let moved := fun (x : Nat) (t : State) => t.now = s.now + (x - d.timeCount)
    (∀ edges, d.pos = .left ∨ d.pos = .right →
      exec (.refGateEnd edges) s = .next s ∧ exec .refOverrange s = .next s) ∧
    (∀ edges n, d.pos = .refLeft ∨ d.pos = .refRight → d.CountsWithin edges d.gate 4095 n → 16 ≤ n →
      ∃ t, exec (.refGateEnd edges) s = .next t ∧ moved d.gate t ∧
        Begun t (if d.pos = .refLeft then .left else .right) ∧ t.draft.eRef = some n ∧
        t.draft.chRef = d.chRef.after true ∧ t.faults = s.faults.afterResult d.chRef true 0 t.now ∧
        t.draft.record = d.record) ∧
    (∀ c x, d.pos = .refLeft → RefFails c d x →
      ∃ t, exec c s = .next t ∧ moved x t ∧ Begun t .refRight ∧ t.draft.eRef = none ∧ t.draft.refFailL = true ∧
        t.draft.qL = none ∧ t.draft.chRef = d.chRef.after false ∧ t.draft.chL = d.chL ∧
        t.faults = s.faults.afterResult d.chRef false 0 t.now ∧ t.draft.record = d.record)

/-- R110, R112, R114: the two stages of a sensor measurement on the left pin, and the runs of a channel. FIRST_EDGE
outside the first stage and SENSOR_MEASUREMENT_END outside the second have no effect (log 3). -/
def Obligations.SensorMeasurementCountsOrStalls : Prop :=
  (∀ s : State, s.resetting = none →
    let d := s.draft
    let sensor := d.pos = .left ∨ d.pos = .right
    (sensor → d.counting = false → exec .firstEdge s =
      .next { s with draft := { d with timeCount := 0, edgeCount := 0, counting := true } }) ∧
    (¬ sensor ∨ d.counting = true → exec .firstEdge s = .next s) ∧
    (∀ edges, ¬ sensor ∨ d.counting = false → exec (.sensorMeasurementEnd edges) s = .next s) ∧
    (∀ c q, d.pos = .left → SensorCounts c d q →
      ∃ t, exec c s = .next t ∧ t.now = s.now + (q - d.timeCount) ∧ Begun t .refRight ∧
        t.draft.qL = some q ∧ t.draft.chL = d.chL.after true ∧ t.faults = s.faults.afterResult d.chL true 1 t.now ∧
        t.draft.record = d.record ∧ t.tables = s.tables) ∧
    (∀ c, d.pos = .left → SensorStalls c d →
      ∃ t, exec c s = .next t ∧ t.now = s.now + (65535 - d.timeCount) ∧ Begun t .refRight ∧
        t.draft.qL = none ∧ t.draft.chL = d.chL.after false ∧ t.faults = s.faults.afterResult d.chL false 1 t.now ∧
        t.draft.record = d.record ∧ t.tables = s.tables)) ∧
  ∀ h : ChannelHealth, h.Ok →
    (h.after true).invalidRun = 0 ∧ (h.after true).validRun = min 10 (h.validRun + 1) ∧
    ((h.after true).failed = true ↔ h.failed = true ∧ h.validRun < 9) ∧
    (h.after false).validRun = 0 ∧ (h.after false).invalidRun = min 3 (h.invalidRun + 1) ∧
    ((h.after false).failed = true ↔ h.failed = true ∨ 2 ≤ h.invalidRun)

/-- R110, R111, R115, R116, R118: the Draft Record at the end of a cycle, and the cycle that begins. The last measurement
brings its edges (log 17). At a zero capture that completes on a COMMITTED table 8 the gate of the new cycle's first REF is
the model's choice, G in use after the capture's change (log 28). -/
def Obligations.CycleEndFormsTheDraftRecord : Prop :=
  ∀ (c : Instr) (s : State) (d : Draft), s.resetting = none → CycleEnds c s d →
    ∃ t, exec c s = .next t ∧ RecordOf s.hitchT (d.included .l) (d.included .r) t.draft.record ∧ Begun t .refLeft ∧
      t.draft.qL = none ∧ t.draft.qR = none ∧ t.draft.refFailL = false ∧ t.draft.refFailR = false ∧
      t.draft.chL = d.chL ∧ t.draft.chR = d.chR ∧ t.draft.chRef = d.chRef ∧ t.intake = s.intake ∧
      t.hitch = s.hitch ∧ (s.mgmt.capture = none → t.tables = s.tables ∧ t.mail = s.mail ∧ t.mgmt = s.mgmt)

/-! ### Hitch, trailer and emission (chapters 8 to 10) -/

/-- R120, R121, R126, R131 to R137: one control step. -/
def Obligations.ControlStepWritesTheLawsCommand : Prop :=
  ∀ s : State, s.resetting = none →
    ∃ (t : State) (u : Int), exec .hitchControlStep s = .next t ∧ ValveCommand s u ∧
      (s.intake.record.drop ≤ 100 → -1000 ≤ u ∧ u ≤ 1000) ∧
      t.mail = { s.mail with hitchValve := ⟨some (bytes2 u ++ [byte1 s.hitch.state.code]), true⟩ } ∧
      t = { s.expire s.hitch.timer with
        mail := t.mail, hitch := t.hitch, vLink := { s.vLink with offer := t.vLink.offer } } ∧
      t.hitch.timer = some (s.hitch.timer.getD t.now + 20 * Config.msTicks) ∧
      t.hitch.memory = s.hitch.memory ∧ t.hitch.override = s.hitch.override ∧ t.hitch.restore = s.hitch.restore ∧
      (s.hitch.state = .control → t.hitch.state = .control ∧
        (t.hitch.correcting = true ↔ u ≤ -(s.hitchT.correcting : Int))) ∧
      (s.hitch.state = .lowering → t.hitch.correcting = s.hitch.correcting ∧ t.hitch.state =
        if (s.shown hitchPos - (s.hitch.restore.getD s.intake.record.dial * 4 : Nat)).natAbs ≤ 50
        then .control else .lowering) ∧
      (s.hitch.state ≠ .control → s.hitch.state ≠ .lowering →
        t.hitch.state = s.hitch.state ∧ t.hitch.correcting = s.hitch.correcting)

/-- R145 to R149: the five demands; the curve between two of its points. -/
def Obligations.TrailerDemandsFollowTheirConditions : Prop :=
  (∀ s : State,
    s.parkDemand = (if s.shown park = 1 then s.trailerT.pFull else 0) ∧
    s.stretchDemand = (if (s.trailer.window = true ∨ s.trailer.tail ≠ none) ∧
        (s.trailerT.vStretch : Int) ≤ s.motion.record.vg ∧ s.shown throttle ≤ 100 ∧ s.shown trailerCoupled = 1
      then s.trailerT.pStretch else 0) ∧
    s.safeStopDemand = (if (s.mode.op = .safeStop ∨ s.mode.op = .latched) ∧
        (s.trailerT.vStretch : Int) ≤ s.motion.record.vg then s.trailerT.pStretch else 0) ∧
    s.latchedDemand = (if s.trailer.latchedHold = true then s.trailerT.pFull else 0) ∧
    s.pedalDemand = curveAt (curvePoints (s.inUse .trailer))
      (max (s.shown brakeL).toNat (s.shown brakeR).toNat)) ∧
  ∀ (before after : List (Nat × Nat)) (a b : Nat × Nat) (p : Nat),
    (before ++ a :: b :: after).Pairwise (fun v w => v.1 < w.1) →
    (a.1 ≤ p → p < b.1 → curveAt (before ++ a :: b :: after) p = a.2 + (p - a.1) * (b.2 - a.2) / (b.1 - a.1)) ∧
    (after = [] → b.1 ≤ p → curveAt (before ++ a :: b :: after) p = b.2)

/-- R149 to R152, R154: one brake step. The check timer does not start again while TRAILER_LINE is present (log 26). -/
def Obligations.BrakeStepLowersTheCommandToDemand : Prop :=
  ∀ s : State, s.resetting = none →
    let hold := s.trailer.latchedHold || (s.mode.op == .latched && s.motion.record.standstill)
    let latched := if hold then s.trailerT.pFull else 0
    let d := max latched (max s.parkDemand (max s.safeStopDemand (max s.stretchDemand s.pedalDemand)))
    let low := (s.slot trailerLine).state ≠ .unmapped
    ∃ (t : State) (c : Nat) (src : TrailerSource), exec .brakeStep s = .next t ∧
      c = (if d < s.trailer.command then max d (s.trailer.command - s.trailerT.rRel) else d) ∧
      src = (if d = 0 then .none else if latched = d then .latched else if s.parkDemand = d then .park
        else if s.safeStopDemand = d then .safeStop else if s.stretchDemand = d then .stretch else .pedal) ∧
      t.mail = { s.mail with trailerValve := ⟨some (bytes2 c ++ [byte1 src.code]), true⟩ } ∧
      t = { s.expire s.trailer.timer with
        mail := t.mail, trailer := t.trailer, faults := t.faults, vLink := { s.vLink with offer := t.vLink.offer } } ∧
      (let failing := low ∧ 2000 ≤ c ∧ s.shown trailerLine < ((c * 30 / 100 : Nat) : Int);
        (failing → t.faults = s.faults ∧ t.trailer =
          ⟨c, src, s.trailer.window, s.trailer.tail, hold,
            if s.trailer.lineCheck ≠ none ∨ s.trailer.lineFault = true then s.trailer.lineCheck
              else some (t.now + 300 * Config.msTicks),
            s.trailer.lineFault, some (s.trailer.timer.getD t.now + 10 * Config.msTicks)⟩) ∧
        (¬ failing → t.faults = s.faults.cleared .trailerLine 0 ∧ t.trailer =
          ⟨c, src, s.trailer.window, s.trailer.tail, hold, none, false,
            some (s.trailer.timer.getD t.now + 10 * Config.msTicks)⟩))

/-- R147, R150, R154: the end of the stretch tail, and of the line check's 300 ms. -/
def Obligations.TrailerTimersPass : Prop :=
  ∀ s : State, s.resetting = none →
    (∀ x, s.trailer.tail = some x →
      ∃ t, exec .stretchTailExpiry s = .next t ∧
        t = { s.expire (some x) with trailer := { s.trailer with
          tail := none, command := t.trailer.command, latchedHold := t.trailer.latchedHold } } ∧
        t.trailer.command = max s.trailer.command (max t.latchedDemand (max t.parkDemand (max t.safeStopDemand
          (max t.stretchDemand t.pedalDemand)))) ∧
        t.trailer.latchedHold = (s.trailer.latchedHold || (s.mode.op == .latched && s.motion.record.standstill))) ∧
    (s.trailer.tail = none → exec .stretchTailExpiry s = .next s) ∧
    (∀ x, s.trailer.lineCheck = some x → exec .lineCheckExpiry s =
      .next { s.expire (some x) with
        trailer := { s.trailer with lineCheck := none, lineFault := true }
        faults := s.faults.raised .trailerLine 0 (some (max s.now x + 1000 * Config.msTicks)) }) ∧
    (s.trailer.lineCheck = none → exec .lineCheckExpiry s = .next s)

/-- R165, R180: the three periodic frames and the reporting position. -/
def Obligations.EmissionWritesTheThreeFrames : Prop :=
  ∀ s : State, s.resetting = none →
    let n := s.faults.entries.length
    let p := if n ≤ s.faults.position then 0 else s.faults.position
    ∃ t, exec .emissionTimer s = .next t ∧
      t = { s.expire s.emission with
        mail := t.mail, tLink := { s.tLink with offer := t.tLink.offer }
        emission := some (s.emission.getD t.now + 100 * Config.msTicks)
        faults := { s.faults with position := if n = 0 then 0 else (p + 1) % 16 } } ∧
      t.mail = { s.mail with
        statusDrive := ⟨some [byte1 s.mode.op.code, byte1 (if s.supervisor.tripped then 1 else 0),
          byte1 (s.gear.current.getD 255), byte1 (s.gear.target.getD 255), byte1 s.fac.state.code,
          byte1 s.hitch.state.code, byte1 n,
          byte1 ((match s.hitch.memory with
              | none => 0
              | some m => if m.lowering then 2 else 1) + (if s.faults.overflow then 4 else 0) +
            8 * s.gear.flag.code : Nat)], true⟩
        statusMotion := ⟨some (bytes2 s.motion.record.vg ++ bytes2 s.motion.record.slip ++
          bytes2 s.draft.record.dTotal ++ [byte1 s.motion.record.source.code, byte1 s.mode.cause.code]), true⟩
        faultReport := t.mail.faultReport } ∧
      (s.faults.entries = [] → t.mail.faultReport = ⟨some (List.replicate 8 0), true⟩) ∧
      (∀ e, s.faults.entries[p]? = some e → t.mail.faultReport = ⟨some ([byte1 n, byte1 p, byte1 e.kind.code,
        byte1 e.index, byte1 (if e.stored then 1 else 0), byte1 e.count] ++ bytes2 e.age), true⟩)

/-! ### Mode, supervisor and Fault List (chapter 11) -/

/-- R170, R172, R175: the run timer and the late timer; a trip in RUN with no SAFE_STOP cause leads to DEGRADED. -/
def Obligations.RunAndLateTimersPass : Prop :=
  ∀ s : State, s.Ready →
    (∀ x, s.mode.runTimer = some x → exec .runTimerExpiry s =
      .next { s.expire (some x) with mode := { s.mode with runTimer := none, stops := 0 } }) ∧
    (s.mode.runTimer = none → exec .runTimerExpiry s = .next s) ∧
    (∀ x, s.supervisor.late = some x →
      ∃ t, exec .lateTimerExpiry s = .next t ∧ t.now = max s.now x ∧
        t.supervisor.errors = min 255 (s.supervisor.errors + 1) ∧
        t.supervisor.late = some (t.now + s.superT.tMaxMs * Config.msTicks) ∧
        t.supervisor.tripped = (s.supervisor.tripped || decide (s.superT.trip ≤ min 255 (s.supervisor.errors + 1))) ∧
        t.supervisor.goodRun = (if t.supervisor.tripped then 0 else s.supervisor.goodRun) ∧
        t.supervisor.expectLow = s.supervisor.expectLow ∧ t.supervisor.lastAccepted = s.supervisor.lastAccepted ∧
        (s.supervisor.tripped = false → t.supervisor.tripped = true →
          (s.faults.raised .cmdSupervision 0 (some (t.now + 1000 * Config.msTicks))).Holds .cmdSupervision 0 t.faults ∧
            (s.mode.op = .run → ¬ SafeStopCause s → t.mode.op = .degraded)) ∧
        (t.supervisor.tripped = s.supervisor.tripped → t.mode = s.mode ∧ t.faults = s.faults) ∧
        t.intake = s.intake ∧ t.tables = s.tables) ∧
    (s.supervisor.late = none → exec .lateTimerExpiry s = .next s)

/-- R177: an entry is one second older at each expiry of its age timer, saturating. -/
def Obligations.AgeTickAgesItsEntry : Prop :=
  ∀ (s : State) (k : FaultKind) (i : Fin 16), s.resetting = none →
    (∀ (pre post : List FaultEntry) (e : FaultEntry), s.faults.entries = pre ++ e :: post → e.kind = k →
      e.index = i.val → Distinct s.faults.entries → ∀ x, e.timer = some x →
      exec (.faultAgeTick k i) s = .next { s.expire (some x) with faults := { s.faults with
        entries := pre ++ { e with age := min 65535 (e.age + 1), timer := some (x + 1000 * Config.msTicks) } :: post } }) ∧
    ((∀ e ∈ s.faults.entries, ¬(e.kind = k ∧ e.index = i.val)) → exec (.faultAgeTick k i) s = .next s)

/-- R177, R178: what a raise does to the list. -/
def Obligations.RaisedFaultFindsItsPlace : Prop :=
  ∀ (f : Faults) (k : FaultKind) (i : Nat) (x : Timer), f.Ok →
    let new : FaultEntry := ⟨k, i, false, 1, 0, x⟩
    let absent := ∀ e ∈ f.entries, ¬(e.kind = k ∧ e.index = i)
    (∀ pre post e, f.entries = pre ++ e :: post → e.kind = k → e.index = i →
      f.raised k i x = { f with
        entries := pre ++ { e with stored := false, count := min 255 (e.count + 1) } :: post }) ∧
    (absent → f.entries.length < 16 → f.raised k i x = { f with entries := f.entries ++ [new] }) ∧
    (∀ pre post e, absent → f.entries.length = 16 → f.entries = pre ++ e :: post → e.stored = true →
      (∀ a ∈ pre, a.stored = false) → f.raised k i x = { f with entries := pre ++ post ++ [new] }) ∧
    (absent → f.entries.length = 16 → (∀ e ∈ f.entries, e.stored = false) →
      f.raised k i x = { f with overflow := true })
end

