-- ==== Sys2Proof/Laws/Orders.lean ====
section
/-! SUPPORT. What taking events in any order can do: a property that each taken event keeps, and that the announcements
and the counter of the free value do not touch, holds of every outcome; and the outcome is one of `AnyOrder`. -/

namespace Sys2Proof.Machine

/-! ### The events that can be taken next -/

/-- Each is the first of its kind, with all others left. -/
theorem mem_takeable {l : List Notice} {p : Notice × List Notice} :
    p ∈ takeable l ↔
      ∃ before after, l = before ++ p.1 :: after ∧ p.2 = before ++ after ∧ ∀ m ∈ before, m.kind ≠ p.1.kind := by
  induction l generalizing p with
  | nil => simp [takeable]
  | cons x xs ih =>
    simp only [takeable, List.mem_cons, List.mem_map, List.mem_filter, bne_iff_ne]
    constructor
    · rintro (rfl | ⟨q, ⟨hq, ne⟩, rfl⟩)
      · exact ⟨[], xs, rfl, rfl, nofun⟩
      · obtain ⟨b, c, e, e', k⟩ := ih.1 hq
        refine ⟨x :: b, c, by rw [e, List.cons_append], by rw [e', List.cons_append], ?_⟩
        intro m hm
        rcases List.mem_cons.1 hm with rfl | hm
        · exact fun h => ne h.symm
        · exact k m hm
    · rintro ⟨b, c, e, e', k⟩
      cases b with
      | nil =>
        obtain ⟨rfl, rfl⟩ := List.cons.inj e
        exact .inl (by rw [← List.nil_append xs, ← e'])
      | cons y b =>
        obtain ⟨rfl, rfl⟩ := List.cons.inj e
        refine .inr ⟨(p.1, b ++ c), ⟨ih.2 ⟨b, c, rfl, rfl, fun m hm => k m (List.mem_cons_of_mem _ hm)⟩, ?_⟩, ?_⟩
        · exact fun h => k x List.mem_cons_self h.symm
        · rw [← List.cons_append, ← e']

theorem takeable_nil {l : List Notice} : takeable l = [] ↔ l = [] := by
  cases l <;> simp [takeable]

/-! ### The outcomes are those of all orders -/

theorem mem_different {ss : List State} {t : State} : t ∈ different ss ↔ t ∈ ss := by
  induction ss generalizing t with
  | nil => exact Iff.rfl
  | cons s ss ih =>
    simp only [different]
    split
    · rename_i h
      rw [ih] at h ⊢
      exact ⟨List.mem_cons_of_mem _, fun k => (List.mem_cons.1 k).elim (fun e => e ▸ h) id⟩
    · rw [List.mem_cons, List.mem_cons, ih]

theorem different_nodup (ss : List State) : (different ss).Pairwise (· ≠ ·) := by
  induction ss with
  | nil => exact .nil
  | cons s ss ih =>
    simp only [different]
    split
    · exact ih
    · exact .cons (fun t ht e => by subst e; contradiction) ih

theorem Ordered.nil_iff {fuel : Nat} {s t : State} (h : s.notices = []) : Ordered fuel s t ↔ t = s := by
  constructor
  · intro o
    cases o with
    | done => rfl
    | out => rfl
    | take e => rw [h] at e; exact absurd e.symm (by simp)
  · rintro rfl
    exact .done h

/-- One event taken, and then the rest. -/
theorem Ordered.succ_iff {fuel : Nat} {s t : State} :
    Ordered (fuel + 1) s t ↔ ∃ u ∈ s.nexts, Ordered fuel u t := by
  by_cases h : s.notices = []
  · rw [Ordered.nil_iff h]
    unfold State.nexts
    rw [takeable_nil.2 h]
    simp only [List.mem_singleton, exists_eq_left, Ordered.nil_iff h]
  · have e : s.nexts = (takeable s.notices).map fun p => ({ s with notices := p.2 } : State).takeNotice p.1 := by
      unfold State.nexts
      split
      · exact absurd (takeable_nil.1 ‹_›) h
      · rfl
    rw [e]
    constructor
    · intro o
      cases o with
      | done k => exact absurd k h
      | @take _ _ _ before after n k first rest =>
        exact ⟨_, List.mem_map.2 ⟨(n, before ++ after), mem_takeable.2 ⟨before, after, k, rfl, first⟩, rfl⟩, rest⟩
    · rintro ⟨u, hu, o⟩
      obtain ⟨p, hp, rfl⟩ := List.mem_map.1 hu
      obtain ⟨b, c, k, k', first⟩ := mem_takeable.1 hp
      rw [k'] at o
      exact .take k first o

/-- The outcomes from some states are those of the orders from each. -/
theorem State.mem_outcomes {fuel : Nat} {ss : List State} {t : State} :
    t ∈ State.outcomes fuel ss ↔ ∃ s ∈ ss, Ordered fuel s t := by
  induction fuel generalizing ss with
  | zero =>
    simp only [State.outcomes]
    constructor
    · exact fun h => ⟨t, h, .out t⟩
    · rintro ⟨s, hs, o⟩
      cases o <;> exact hs
  | succ fuel ih =>
    unfold State.outcomes
    split
    · rename_i h
      constructor
      · exact fun k => ⟨t, k, .done (h t k)⟩
      · rintro ⟨s, hs, o⟩
        rwa [(Ordered.nil_iff (h s hs)).1 o]
    · rw [ih]
      simp only [Ordered.succ_iff, mem_different, List.mem_flatMap]
      constructor
      · rintro ⟨u, ⟨s, hs, hu⟩, o⟩
        exact ⟨s, hs, u, hu, o⟩
      · rintro ⟨s, hs, u, hu, o⟩
        exact ⟨u, ⟨s, hs, hu⟩, o⟩

theorem State.nexts_ne_nil (s : State) : s.nexts ≠ [] := by
  unfold State.nexts
  split
  · simp
  · rename_i h
    simpa using h

/-- There is an outcome. -/
theorem State.outcomes_ne_nil (fuel : Nat) {ss : List State} (h : ss ≠ []) : State.outcomes fuel ss ≠ [] := by
  induction fuel generalizing ss with
  | zero => exact h
  | succ fuel ih =>
    unfold State.outcomes
    split
    · exact h
    · refine ih ?_
      obtain ⟨s, hs⟩ := List.exists_mem_of_ne_nil _ h
      obtain ⟨t, ht⟩ := List.exists_mem_of_ne_nil _ s.nexts_ne_nil
      exact List.ne_nil_of_mem (mem_different.2 (List.mem_flatMap.2 ⟨s, hs, ht⟩))

/-- No outcome stands twice. -/
theorem State.outcomes_nodup (fuel : Nat) {ss : List State} (h : ss.Pairwise (· ≠ ·)) :
    (State.outcomes fuel ss).Pairwise (· ≠ ·) := by
  induction fuel generalizing ss with
  | zero => exact h
  | succ fuel ih =>
    unfold State.outcomes
    split
    · exact h
    · exact ih (different_nodup _)

/-- Among different outcomes the free value picks one. -/
theorem State.pick_one (s : State) (t u : State) (ts : List State) : s.pick (t :: u :: ts) =
    { (t :: u :: ts).getD (Config.freeOrder s.free % (t :: u :: ts).length) t with free := s.free + 1 } := rfl

/-- What taking the events in any order does. -/
theorem State.settled_anyOrder (s : State) : AnyOrder s s.settled := by
  have mem : ∀ t, t ∈ State.outcomes Config.settleFuel [s] ↔ Ordered Config.settleFuel s t := fun t => by
    simp [State.mem_outcomes]
  have apart := State.outcomes_nodup Config.settleFuel (List.pairwise_singleton _ s)
  have some : State.outcomes Config.settleFuel [s] ≠ [] := State.outcomes_ne_nil _ (by simp)
  unfold State.settled
  revert mem apart some
  generalize State.outcomes Config.settleFuel [s] = ts
  intro mem apart some
  cases ts with
  | nil => exact absurd rfl some
  | cons t ts =>
    cases ts with
    | nil =>
      refine ⟨fun _ => (mem t).1 List.mem_cons_self, fun differ => absurd ?_ differ⟩
      intro u v hu hv
      have hu := (mem u).2 hu
      have hv := (mem v).2 hv
      simp only [List.mem_singleton] at hu hv
      rw [hu, hv]
    | cons u ts =>
      refine ⟨fun alike => absurd ?_ ((List.pairwise_cons.1 apart).1 u List.mem_cons_self), fun _ => ?_⟩
      · exact alike t u ((mem t).1 List.mem_cons_self) ((mem u).1 (List.mem_cons_of_mem _ List.mem_cons_self))
      · rw [State.pick_one]
        have lt : Config.freeOrder s.free % (t :: u :: ts).length < (t :: u :: ts).length := Nat.mod_lt _ (Nat.zero_lt_succ _)
        refine ⟨(t :: u :: ts).length, Nat.zero_lt_succ _, ⟨_, (mem _).1 ?_, rfl⟩, fun v hv => ?_⟩
        · rw [List.getD_eq_getElem?_getD, List.getElem?_eq_getElem lt, Option.getD_some]
          exact List.getElem_mem lt
        · obtain ⟨k, hk, rfl⟩ := List.mem_iff_getElem.1 ((mem v).2 hv)
          refine ⟨k, hk, fun h => ?_⟩
          rw [h, List.getD_eq_getElem?_getD, List.getElem?_eq_getElem hk, Option.getD_some]

/-! ### What every outcome has -/

variable {P : State → Prop}

/-- A pick keeps what all its outcomes have. -/
theorem State.pick_keeps (free : ∀ (t : State) (n : Nat), P t → P { t with free := n }) {s : State} (hs : P s)
    {ts : List State} (h : ∀ t ∈ ts, P t) : P (s.pick ts) := by
  unfold State.pick
  split
  · exact hs
  · exact h _ List.mem_cons_self
  · rename_i t ts _
    refine free _ _ ?_
    rw [List.getD_eq_getElem?_getD]
    cases e : (t :: ts)[Config.freeOrder s.free % (t :: ts).length]? with
    | none => exact h t List.mem_cons_self
    | some u => exact h u (List.mem_of_getElem? e)

/-- An order keeps what the taking of each event that waits keeps. -/
theorem Ordered.keeps (take : ∀ (t : State) (before : List Notice) (n : Notice) (after : List Notice),
      t.notices = before ++ n :: after → P t → P (({ t with notices := before ++ after } : State).takeNotice n))
    {fuel : Nat} {s t : State} (o : Ordered fuel s t) (hs : P s) : P t := by
  induction o with
  | done => exact hs
  | out => exact hs
  | take h _ _ ih => exact ih (take _ _ _ _ h hs)

/-- Taking all that a command has brought keeps what the taking of each event that waits keeps; `P` may speak of the events
that wait. -/
theorem State.settled_takes (free : ∀ (t : State) (n : Nat), P t → P { t with free := n })
    (take : ∀ (t : State) (before : List Notice) (n : Notice) (after : List Notice),
      t.notices = before ++ n :: after → P t → P (({ t with notices := before ++ after } : State).takeNotice n))
    {s : State} (hs : P s) : P s.settled := by
  refine State.pick_keeps free hs fun t ht => ?_
  obtain ⟨u, hu, o⟩ := State.mem_outcomes.1 ht
  rw [List.mem_singleton] at hu
  exact o.keeps take (hu ▸ hs)

/-- Taking all that a command has brought keeps what every event keeps. -/
theorem State.settled_keeps (free : ∀ (t : State) (n : Nat), P t → P { t with free := n })
    (drop : ∀ (t : State) (l : List Notice), P t → P { t with notices := l }) (take : ∀ n t, P t → P (t.takeNotice n))
    {s : State} (hs : P s) : P s.settled :=
  State.settled_takes free (fun t before n after _ h => take n _ (drop t (before ++ after) h)) hs

/-- With nothing announced nothing is taken. -/
theorem State.settled_nil {s : State} (h : s.notices = []) : s.settled = s := by
  have e : State.outcomes Config.settleFuel [s] = [s] := by
    show State.outcomes (63 + 1) [s] = _
    unfold State.outcomes
    rw [if_pos (by simpa using h)]
  unfold State.settled
  rw [e]
  rfl

end Sys2Proof.Machine
end

