-- ==== Sys2Proof/Laws/State.lean ====
section
/-! SUPPORT. What each update of the state writes and what it leaves, field by field. -/

namespace Sys2Proof.Machine

@[simp] theorem State.announce_fields (s : State) (n : Notice) :
    (s.announce n).pending = s.pending ∧ (s.announce n).now = s.now ∧ (s.announce n).free = s.free ∧
    (s.announce n).resetting = s.resetting ∧ (s.announce n).rstn = s.rstn ∧ (s.announce n).neut = s.neut ∧
    (s.announce n).tables = s.tables ∧ (s.announce n).intake = s.intake ∧ (s.announce n).motion = s.motion ∧
    (s.announce n).gear = s.gear ∧ (s.announce n).shift = s.shift ∧ (s.announce n).arbiter = s.arbiter ∧
    (s.announce n).fac = s.fac ∧ (s.announce n).draft = s.draft ∧ (s.announce n).hitch = s.hitch ∧
    (s.announce n).trailer = s.trailer ∧ (s.announce n).tLink = s.tLink ∧ (s.announce n).vLink = s.vLink ∧
    (s.announce n).mail = s.mail ∧ (s.announce n).emission = s.emission ∧ (s.announce n).mode = s.mode ∧
    (s.announce n).supervisor = s.supervisor ∧ (s.announce n).faults = s.faults ∧
    (s.announce n).mgmt = s.mgmt ∧ (s.announce n).notices = (s.notices ++ [n]) :=
  ⟨rfl, rfl, rfl, rfl, rfl, rfl, rfl, rfl, rfl, rfl, rfl, rfl, rfl, rfl, rfl, rfl, rfl, rfl, rfl, rfl, rfl, rfl, rfl, rfl, rfl⟩

@[simp] theorem State.setTable_fields (s : State) (id : TableId) (t : Table) :
    (s.setTable id t).pending = s.pending ∧ (s.setTable id t).now = s.now ∧ (s.setTable id t).free = s.free ∧
    (s.setTable id t).notices = s.notices ∧ (s.setTable id t).resetting = s.resetting ∧
    (s.setTable id t).rstn = s.rstn ∧ (s.setTable id t).neut = s.neut ∧ (s.setTable id t).intake = s.intake ∧
    (s.setTable id t).motion = s.motion ∧ (s.setTable id t).gear = s.gear ∧ (s.setTable id t).shift = s.shift ∧
    (s.setTable id t).arbiter = s.arbiter ∧ (s.setTable id t).fac = s.fac ∧ (s.setTable id t).draft = s.draft ∧
    (s.setTable id t).hitch = s.hitch ∧ (s.setTable id t).trailer = s.trailer ∧
    (s.setTable id t).tLink = s.tLink ∧ (s.setTable id t).vLink = s.vLink ∧ (s.setTable id t).mail = s.mail ∧
    (s.setTable id t).emission = s.emission ∧ (s.setTable id t).mode = s.mode ∧
    (s.setTable id t).supervisor = s.supervisor ∧ (s.setTable id t).faults = s.faults ∧
    (s.setTable id t).mgmt = s.mgmt ∧ (s.setTable id t).tables = (s.tables.put id t) :=
  ⟨rfl, rfl, rfl, rfl, rfl, rfl, rfl, rfl, rfl, rfl, rfl, rfl, rfl, rfl, rfl, rfl, rfl, rfl, rfl, rfl, rfl, rfl, rfl, rfl, rfl⟩

@[simp] theorem State.setSlot_fields (s : State) (i : Fin 16) (x : Slot) :
    (s.setSlot i x).pending = s.pending ∧ (s.setSlot i x).now = s.now ∧ (s.setSlot i x).free = s.free ∧
    (s.setSlot i x).notices = s.notices ∧ (s.setSlot i x).resetting = s.resetting ∧
    (s.setSlot i x).rstn = s.rstn ∧ (s.setSlot i x).neut = s.neut ∧ (s.setSlot i x).tables = s.tables ∧
    (s.setSlot i x).motion = s.motion ∧ (s.setSlot i x).gear = s.gear ∧ (s.setSlot i x).shift = s.shift ∧
    (s.setSlot i x).arbiter = s.arbiter ∧ (s.setSlot i x).fac = s.fac ∧ (s.setSlot i x).draft = s.draft ∧
    (s.setSlot i x).hitch = s.hitch ∧ (s.setSlot i x).trailer = s.trailer ∧ (s.setSlot i x).tLink = s.tLink ∧
    (s.setSlot i x).vLink = s.vLink ∧ (s.setSlot i x).mail = s.mail ∧ (s.setSlot i x).emission = s.emission ∧
    (s.setSlot i x).mode = s.mode ∧ (s.setSlot i x).supervisor = s.supervisor ∧
    (s.setSlot i x).faults = s.faults ∧ (s.setSlot i x).mgmt = s.mgmt ∧
    (s.setSlot i x).intake = ({ s.intake with slots := s.intake.slots.set i x }) :=
  ⟨rfl, rfl, rfl, rfl, rfl, rfl, rfl, rfl, rfl, rfl, rfl, rfl, rfl, rfl, rfl, rfl, rfl, rfl, rfl, rfl, rfl, rfl, rfl, rfl, rfl⟩

@[simp] theorem State.raise_fields (s : State) (k : FaultKind) (i : Nat) :
    (s.raise k i).pending = s.pending ∧ (s.raise k i).now = s.now ∧ (s.raise k i).free = s.free ∧
    (s.raise k i).notices = s.notices ∧ (s.raise k i).resetting = s.resetting ∧ (s.raise k i).rstn = s.rstn ∧
    (s.raise k i).neut = s.neut ∧ (s.raise k i).tables = s.tables ∧ (s.raise k i).intake = s.intake ∧
    (s.raise k i).motion = s.motion ∧ (s.raise k i).gear = s.gear ∧ (s.raise k i).shift = s.shift ∧
    (s.raise k i).arbiter = s.arbiter ∧ (s.raise k i).fac = s.fac ∧ (s.raise k i).draft = s.draft ∧
    (s.raise k i).hitch = s.hitch ∧ (s.raise k i).trailer = s.trailer ∧ (s.raise k i).tLink = s.tLink ∧
    (s.raise k i).vLink = s.vLink ∧ (s.raise k i).mail = s.mail ∧ (s.raise k i).emission = s.emission ∧
    (s.raise k i).mode = s.mode ∧ (s.raise k i).supervisor = s.supervisor ∧ (s.raise k i).mgmt = s.mgmt ∧
    (s.raise k i).faults = (s.faults.raised k i (s.after Config.ageMs)) :=
  ⟨rfl, rfl, rfl, rfl, rfl, rfl, rfl, rfl, rfl, rfl, rfl, rfl, rfl, rfl, rfl, rfl, rfl, rfl, rfl, rfl, rfl, rfl, rfl, rfl, rfl⟩

@[simp] theorem State.gone_fields (s : State) (k : FaultKind) (i : Nat) :
    (s.gone k i).pending = s.pending ∧ (s.gone k i).now = s.now ∧ (s.gone k i).free = s.free ∧
    (s.gone k i).notices = s.notices ∧ (s.gone k i).resetting = s.resetting ∧ (s.gone k i).rstn = s.rstn ∧
    (s.gone k i).neut = s.neut ∧ (s.gone k i).tables = s.tables ∧ (s.gone k i).intake = s.intake ∧
    (s.gone k i).motion = s.motion ∧ (s.gone k i).gear = s.gear ∧ (s.gone k i).shift = s.shift ∧
    (s.gone k i).arbiter = s.arbiter ∧ (s.gone k i).fac = s.fac ∧ (s.gone k i).draft = s.draft ∧
    (s.gone k i).hitch = s.hitch ∧ (s.gone k i).trailer = s.trailer ∧ (s.gone k i).tLink = s.tLink ∧
    (s.gone k i).vLink = s.vLink ∧ (s.gone k i).mail = s.mail ∧ (s.gone k i).emission = s.emission ∧
    (s.gone k i).mode = s.mode ∧ (s.gone k i).supervisor = s.supervisor ∧ (s.gone k i).mgmt = s.mgmt ∧
    (s.gone k i).faults = (s.faults.cleared k i) :=
  ⟨rfl, rfl, rfl, rfl, rfl, rfl, rfl, rfl, rfl, rfl, rfl, rfl, rfl, rfl, rfl, rfl, rfl, rfl, rfl, rfl, rfl, rfl, rfl, rfl, rfl⟩

@[simp] theorem State.withGear_fields (s : State) (f : Gear → Gear) :
    (s.withGear f).pending = s.pending ∧ (s.withGear f).now = s.now ∧ (s.withGear f).free = s.free ∧
    (s.withGear f).notices = s.notices ∧ (s.withGear f).resetting = s.resetting ∧
    (s.withGear f).rstn = s.rstn ∧ (s.withGear f).neut = s.neut ∧ (s.withGear f).tables = s.tables ∧
    (s.withGear f).intake = s.intake ∧ (s.withGear f).motion = s.motion ∧ (s.withGear f).shift = s.shift ∧
    (s.withGear f).arbiter = s.arbiter ∧ (s.withGear f).fac = s.fac ∧ (s.withGear f).draft = s.draft ∧
    (s.withGear f).hitch = s.hitch ∧ (s.withGear f).trailer = s.trailer ∧ (s.withGear f).tLink = s.tLink ∧
    (s.withGear f).vLink = s.vLink ∧ (s.withGear f).mail = s.mail ∧ (s.withGear f).emission = s.emission ∧
    (s.withGear f).mode = s.mode ∧ (s.withGear f).supervisor = s.supervisor ∧
    (s.withGear f).faults = s.faults ∧ (s.withGear f).mgmt = s.mgmt ∧ (s.withGear f).gear = (f s.gear) :=
  ⟨rfl, rfl, rfl, rfl, rfl, rfl, rfl, rfl, rfl, rfl, rfl, rfl, rfl, rfl, rfl, rfl, rfl, rfl, rfl, rfl, rfl, rfl, rfl, rfl, rfl⟩

@[simp] theorem State.withOrder_fields (s : State) (o : Order) :
    (s.withOrder o).pending = s.pending ∧ (s.withOrder o).now = s.now ∧ (s.withOrder o).free = s.free ∧
    (s.withOrder o).notices = s.notices ∧ (s.withOrder o).resetting = s.resetting ∧
    (s.withOrder o).rstn = s.rstn ∧ (s.withOrder o).neut = s.neut ∧ (s.withOrder o).tables = s.tables ∧
    (s.withOrder o).intake = s.intake ∧ (s.withOrder o).motion = s.motion ∧ (s.withOrder o).gear = s.gear ∧
    (s.withOrder o).arbiter = s.arbiter ∧ (s.withOrder o).fac = s.fac ∧ (s.withOrder o).draft = s.draft ∧
    (s.withOrder o).hitch = s.hitch ∧ (s.withOrder o).trailer = s.trailer ∧ (s.withOrder o).tLink = s.tLink ∧
    (s.withOrder o).vLink = s.vLink ∧ (s.withOrder o).mail = s.mail ∧ (s.withOrder o).emission = s.emission ∧
    (s.withOrder o).mode = s.mode ∧ (s.withOrder o).supervisor = s.supervisor ∧
    (s.withOrder o).faults = s.faults ∧ (s.withOrder o).mgmt = s.mgmt ∧
    (s.withOrder o).shift = ({ s.shift with order := some o }) :=
  ⟨rfl, rfl, rfl, rfl, rfl, rfl, rfl, rfl, rfl, rfl, rfl, rfl, rfl, rfl, rfl, rfl, rfl, rfl, rfl, rfl, rfl, rfl, rfl, rfl, rfl⟩

@[simp] theorem State.setNeut_fields (s : State) :
    (s.setNeut).pending = s.pending ∧ (s.setNeut).now = s.now ∧ (s.setNeut).free = s.free ∧
    (s.setNeut).notices = s.notices ∧ (s.setNeut).resetting = s.resetting ∧ (s.setNeut).rstn = s.rstn ∧
    (s.setNeut).tables = s.tables ∧ (s.setNeut).intake = s.intake ∧ (s.setNeut).motion = s.motion ∧
    (s.setNeut).gear = s.gear ∧ (s.setNeut).shift = s.shift ∧ (s.setNeut).arbiter = s.arbiter ∧
    (s.setNeut).fac = s.fac ∧ (s.setNeut).draft = s.draft ∧ (s.setNeut).hitch = s.hitch ∧
    (s.setNeut).trailer = s.trailer ∧ (s.setNeut).tLink = s.tLink ∧ (s.setNeut).vLink = s.vLink ∧
    (s.setNeut).mail = s.mail ∧ (s.setNeut).emission = s.emission ∧ (s.setNeut).mode = s.mode ∧
    (s.setNeut).supervisor = s.supervisor ∧ (s.setNeut).faults = s.faults ∧ (s.setNeut).mgmt = s.mgmt ∧
    (s.setNeut).neut = (s.command 7 == 0 && s.command 8 == 0 && !(s.shift.order.any Order.engaging)) :=
  ⟨rfl, rfl, rfl, rfl, rfl, rfl, rfl, rfl, rfl, rfl, rfl, rfl, rfl, rfl, rfl, rfl, rfl, rfl, rfl, rfl, rfl, rfl, rfl, rfl, rfl⟩

@[simp] theorem State.withDraft_fields (s : State) (f : Draft → Draft) :
    (s.withDraft f).pending = s.pending ∧ (s.withDraft f).now = s.now ∧ (s.withDraft f).free = s.free ∧
    (s.withDraft f).notices = s.notices ∧ (s.withDraft f).resetting = s.resetting ∧
    (s.withDraft f).rstn = s.rstn ∧ (s.withDraft f).neut = s.neut ∧ (s.withDraft f).tables = s.tables ∧
    (s.withDraft f).intake = s.intake ∧ (s.withDraft f).motion = s.motion ∧ (s.withDraft f).gear = s.gear ∧
    (s.withDraft f).shift = s.shift ∧ (s.withDraft f).arbiter = s.arbiter ∧ (s.withDraft f).fac = s.fac ∧
    (s.withDraft f).hitch = s.hitch ∧ (s.withDraft f).trailer = s.trailer ∧ (s.withDraft f).tLink = s.tLink ∧
    (s.withDraft f).vLink = s.vLink ∧ (s.withDraft f).mail = s.mail ∧ (s.withDraft f).emission = s.emission ∧
    (s.withDraft f).mode = s.mode ∧ (s.withDraft f).supervisor = s.supervisor ∧
    (s.withDraft f).faults = s.faults ∧ (s.withDraft f).mgmt = s.mgmt ∧ (s.withDraft f).draft = (f s.draft) :=
  ⟨rfl, rfl, rfl, rfl, rfl, rfl, rfl, rfl, rfl, rfl, rfl, rfl, rfl, rfl, rfl, rfl, rfl, rfl, rfl, rfl, rfl, rfl, rfl, rfl, rfl⟩

@[simp] theorem State.withSupervisor_fields (s : State) (f : Supervisor → Supervisor) :
    (s.withSupervisor f).pending = s.pending ∧ (s.withSupervisor f).now = s.now ∧
    (s.withSupervisor f).free = s.free ∧ (s.withSupervisor f).notices = s.notices ∧
    (s.withSupervisor f).resetting = s.resetting ∧ (s.withSupervisor f).rstn = s.rstn ∧
    (s.withSupervisor f).neut = s.neut ∧ (s.withSupervisor f).tables = s.tables ∧
    (s.withSupervisor f).intake = s.intake ∧ (s.withSupervisor f).motion = s.motion ∧
    (s.withSupervisor f).gear = s.gear ∧ (s.withSupervisor f).shift = s.shift ∧
    (s.withSupervisor f).arbiter = s.arbiter ∧ (s.withSupervisor f).fac = s.fac ∧
    (s.withSupervisor f).draft = s.draft ∧ (s.withSupervisor f).hitch = s.hitch ∧
    (s.withSupervisor f).trailer = s.trailer ∧ (s.withSupervisor f).tLink = s.tLink ∧
    (s.withSupervisor f).vLink = s.vLink ∧ (s.withSupervisor f).mail = s.mail ∧
    (s.withSupervisor f).emission = s.emission ∧ (s.withSupervisor f).mode = s.mode ∧
    (s.withSupervisor f).faults = s.faults ∧ (s.withSupervisor f).mgmt = s.mgmt ∧
    (s.withSupervisor f).supervisor = (f s.supervisor) :=
  ⟨rfl, rfl, rfl, rfl, rfl, rfl, rfl, rfl, rfl, rfl, rfl, rfl, rfl, rfl, rfl, rfl, rfl, rfl, rfl, rfl, rfl, rfl, rfl, rfl, rfl⟩

@[simp] theorem State.atTime_fields (s : State) (t : Time) :
    (s.atTime t).pending = s.pending ∧ (s.atTime t).free = s.free ∧ (s.atTime t).notices = s.notices ∧
    (s.atTime t).resetting = s.resetting ∧ (s.atTime t).rstn = s.rstn ∧ (s.atTime t).neut = s.neut ∧
    (s.atTime t).tables = s.tables ∧ (s.atTime t).intake = s.intake ∧ (s.atTime t).motion = s.motion ∧
    (s.atTime t).gear = s.gear ∧ (s.atTime t).shift = s.shift ∧ (s.atTime t).arbiter = s.arbiter ∧
    (s.atTime t).fac = s.fac ∧ (s.atTime t).hitch = s.hitch ∧ (s.atTime t).trailer = s.trailer ∧
    (s.atTime t).tLink = s.tLink ∧ (s.atTime t).vLink = s.vLink ∧ (s.atTime t).mail = s.mail ∧
    (s.atTime t).emission = s.emission ∧ (s.atTime t).mode = s.mode ∧ (s.atTime t).supervisor = s.supervisor ∧
    (s.atTime t).faults = s.faults ∧ (s.atTime t).mgmt = s.mgmt ∧ (s.atTime t).now = (max s.now t) ∧
    (s.atTime t).draft = (s.draft.count (t - s.now)) :=
  ⟨rfl, rfl, rfl, rfl, rfl, rfl, rfl, rfl, rfl, rfl, rfl, rfl, rfl, rfl, rfl, rfl, rfl, rfl, rfl, rfl, rfl, rfl, rfl, rfl, rfl⟩

@[simp] theorem State.expire_fields (s : State) (t : Timer) :
    (s.expire t).pending = s.pending ∧ (s.expire t).free = s.free ∧ (s.expire t).notices = s.notices ∧
    (s.expire t).resetting = s.resetting ∧ (s.expire t).rstn = s.rstn ∧ (s.expire t).neut = s.neut ∧
    (s.expire t).tables = s.tables ∧ (s.expire t).intake = s.intake ∧ (s.expire t).motion = s.motion ∧
    (s.expire t).gear = s.gear ∧ (s.expire t).shift = s.shift ∧ (s.expire t).arbiter = s.arbiter ∧
    (s.expire t).fac = s.fac ∧ (s.expire t).hitch = s.hitch ∧ (s.expire t).trailer = s.trailer ∧
    (s.expire t).tLink = s.tLink ∧ (s.expire t).vLink = s.vLink ∧ (s.expire t).mail = s.mail ∧
    (s.expire t).emission = s.emission ∧ (s.expire t).mode = s.mode ∧ (s.expire t).supervisor = s.supervisor ∧
    (s.expire t).faults = s.faults ∧ (s.expire t).mgmt = s.mgmt ∧
    (s.expire t).now = (max s.now (t.getD s.now)) ∧
    (s.expire t).draft = (s.draft.count (t.getD s.now - s.now)) :=
  ⟨rfl, rfl, rfl, rfl, rfl, rfl, rfl, rfl, rfl, rfl, rfl, rfl, rfl, rfl, rfl, rfl, rfl, rfl, rfl, rfl, rfl, rfl, rfl, rfl, rfl⟩

@[simp] theorem State.setLink_t_fields (s : State) (c : LinkCtl) :
    (s.setLink .t c).pending = s.pending ∧ (s.setLink .t c).now = s.now ∧ (s.setLink .t c).free = s.free ∧
    (s.setLink .t c).notices = s.notices ∧ (s.setLink .t c).resetting = s.resetting ∧
    (s.setLink .t c).rstn = s.rstn ∧ (s.setLink .t c).neut = s.neut ∧ (s.setLink .t c).tables = s.tables ∧
    (s.setLink .t c).intake = s.intake ∧ (s.setLink .t c).motion = s.motion ∧ (s.setLink .t c).gear = s.gear ∧
    (s.setLink .t c).shift = s.shift ∧ (s.setLink .t c).arbiter = s.arbiter ∧ (s.setLink .t c).fac = s.fac ∧
    (s.setLink .t c).draft = s.draft ∧ (s.setLink .t c).hitch = s.hitch ∧
    (s.setLink .t c).trailer = s.trailer ∧ (s.setLink .t c).vLink = s.vLink ∧ (s.setLink .t c).mail = s.mail ∧
    (s.setLink .t c).emission = s.emission ∧ (s.setLink .t c).mode = s.mode ∧
    (s.setLink .t c).supervisor = s.supervisor ∧ (s.setLink .t c).faults = s.faults ∧
    (s.setLink .t c).mgmt = s.mgmt ∧ (s.setLink .t c).tLink = (c) :=
  ⟨rfl, rfl, rfl, rfl, rfl, rfl, rfl, rfl, rfl, rfl, rfl, rfl, rfl, rfl, rfl, rfl, rfl, rfl, rfl, rfl, rfl, rfl, rfl, rfl, rfl⟩

@[simp] theorem State.setLink_v_fields (s : State) (c : LinkCtl) :
    (s.setLink .v c).pending = s.pending ∧ (s.setLink .v c).now = s.now ∧ (s.setLink .v c).free = s.free ∧
    (s.setLink .v c).notices = s.notices ∧ (s.setLink .v c).resetting = s.resetting ∧
    (s.setLink .v c).rstn = s.rstn ∧ (s.setLink .v c).neut = s.neut ∧ (s.setLink .v c).tables = s.tables ∧
    (s.setLink .v c).intake = s.intake ∧ (s.setLink .v c).motion = s.motion ∧ (s.setLink .v c).gear = s.gear ∧
    (s.setLink .v c).shift = s.shift ∧ (s.setLink .v c).arbiter = s.arbiter ∧ (s.setLink .v c).fac = s.fac ∧
    (s.setLink .v c).draft = s.draft ∧ (s.setLink .v c).hitch = s.hitch ∧
    (s.setLink .v c).trailer = s.trailer ∧ (s.setLink .v c).tLink = s.tLink ∧ (s.setLink .v c).mail = s.mail ∧
    (s.setLink .v c).emission = s.emission ∧ (s.setLink .v c).mode = s.mode ∧
    (s.setLink .v c).supervisor = s.supervisor ∧ (s.setLink .v c).faults = s.faults ∧
    (s.setLink .v c).mgmt = s.mgmt ∧ (s.setLink .v c).vLink = (c) :=
  ⟨rfl, rfl, rfl, rfl, rfl, rfl, rfl, rfl, rfl, rfl, rfl, rfl, rfl, rfl, rfl, rfl, rfl, rfl, rfl, rfl, rfl, rfl, rfl, rfl, rfl⟩

/-- A write of a mailbox changes the mailbox, and on its link only the note that an offer was overtaken (R161). -/
theorem State.writeMail_fields (s : State) (id : MailboxId) (data : List Byte) :
    s.writeMail id data = { s with
      mail := s.mail.put id ⟨some data, true⟩
      tLink := if id.link = .t then { s.tLink with offer := s.tLink.offer.map (·.noteWrite id) } else s.tLink
      vLink := if id.link = .v then { s.vLink with offer := s.vLink.offer.map (·.noteWrite id) } else s.vLink } := by
  cases id <;> rfl

/-- Reading a table after one was set. -/
theorem Tables.get_put (ts : Tables) (a b : TableId) (t : Table) :
    (ts.put a t).get b = if a = b then t else ts.get b := by
  cases a <;> cases b <;> rfl

/-- Reading a mailbox after one was set. -/
theorem Mailboxes.get_put (m : Mailboxes) (a b : MailboxId) (x : Mailbox) :
    (m.put a x).get b = if a = b then x else m.get b := by
  cases a <;> cases b <;> rfl

/-- Reading a link after one was set. -/
theorem State.link_setLink (s : State) (a b : Link) (c : LinkCtl) :
    (s.setLink a c).link b = if a = b then c else s.link b := by
  cases a <;> cases b <;> rfl

/-- Reading a slot after one was set. -/
theorem State.slot_setSlot (s : State) (i j : Fin 16) (x : Slot) :
    (s.setSlot i x).slot j = if i = j then x else s.slot j := by
  simp only [State.slot, State.setSlot, Fin.getElem_fin, Vector.getElem_set]
  by_cases h : i = j
  · simp [h]
  · have : ¬ i.val = j.val := fun e => h (Fin.ext e)
    simp [h, this]

end Sys2Proof.Machine
end

