-- ==== Sys2Proof/Laws/Acts.lean ====
section
/-! SUPPORT. What the reactions of the motion, gear, shift, arbiter, front axle, trailer and hitch blocks can do at
most: `Acts s0 s` says that `s` follows from `s0` by such reactions. They write the state of those blocks, the
Fault List, the ShiftRecord mailbox, NEUT, the announcements and the counter of the free value; they keep the
invariant. One lemma per operation. -/

namespace Sys2Proof.Machine

/-- The kinds whose condition a reaction can report gone. -/
def byReaction : FaultKind → Bool
  | .shiftSyncTimeout => true
  | .facNoRelease => true
  | .trailerLine => true
  | .signalLost => false
  | .linkSuspect => false
  | .linkFailed => false
  | .passageDrop => false
  | .cmdSupervision => false
  | .draftChannel => false
  | .safeStopLatched => false

/-- Conditions are raised, and those of the kinds above reported gone. -/
abbrev Faults.Keeps (f g : Faults) : Prop := f.Moves (fun k _ => byReaction k = true) g

theorem Faults.Moves.trans {p : FaultKind → Nat → Prop} {f g h : Faults} (a : f.Moves p g) (b : g.Moves p h) :
    f.Moves p h := by
  induction b with
  | start => exact a
  | raised _ k i x ih => exact .raised ih k i x
  | cleared _ hk ih => exact .cleared ih hk

theorem Faults.Moves.mono {p q : FaultKind → Nat → Prop} {f g : Faults} (a : f.Moves p g) (h : ∀ k i, p k i → q k i) :
    f.Moves q g := by
  induction a with
  | start => exact .start
  | raised _ k i x ih => exact .raised ih k i x
  | cleared _ hk ih => exact .cleared ih (h _ _ hk)

/-- A reaction does not report gone a condition of another kind. -/
theorem Faults.Keeps.holds {f g : Faults} (a : f.Keeps g) {k : FaultKind} (i : Nat) (hk : byReaction k = false) :
    f.Holds k i g :=
  a.mono fun k' i' h e => by rw [e.1, hk] at h; exact Bool.noConfusion h

/-- A raise, and what follows it. -/
theorem Faults.Holds.raises {f m g : Faults} {k : FaultKind} {i : Nat} {x : Timer}
    (a : f.Moves (fun _ _ => True) m) (b : (m.raised k i x).Holds k i g) : f.Raises k i g := ⟨m, x, a, b⟩

/-- What a reaction leaves alone, and that it keeps the invariant. -/
structure Acts (s0 s : State) : Prop where
  pending : s.pending = s0.pending
  now : s.now = s0.now
  resetting : s.resetting = s0.resetting
  rstn : s.rstn = s0.rstn
  tables : s.tables = s0.tables
  intake : s.intake = s0.intake
  draft : s.draft = s0.draft
  vLink : s.vLink = s0.vLink
  emission : s.emission = s0.emission
  mode : s.mode = s0.mode
  supervisor : s.supervisor = s0.supervisor
  mgmt : s.mgmt = s0.mgmt
  mail : s.mail = { s0.mail with shiftRecord := s.mail.shiftRecord }
  tLink : s.tLink = { s0.tLink with offer := s.tLink.offer }
  faults : s0.faults.Keeps s.faults
  ok : s0.Ok → s.Ok

theorem Acts.refl (s : State) : Acts s s :=
  ⟨rfl, rfl, rfl, rfl, rfl, rfl, rfl, rfl, rfl, rfl, rfl, rfl, rfl, rfl, .start, id⟩

theorem Acts.trans {a b c : State} (h : Acts a b) (k : Acts b c) : Acts a c where
  pending := k.pending.trans h.pending
  now := k.now.trans h.now
  resetting := k.resetting.trans h.resetting
  rstn := k.rstn.trans h.rstn
  tables := k.tables.trans h.tables
  intake := k.intake.trans h.intake
  draft := k.draft.trans h.draft
  vLink := k.vLink.trans h.vLink
  emission := k.emission.trans h.emission
  mode := k.mode.trans h.mode
  supervisor := k.supervisor.trans h.supervisor
  mgmt := k.mgmt.trans h.mgmt
  mail := by rw [k.mail, h.mail]
  tLink := by rw [k.tLink, h.tLink]
  faults := h.faults.trans k.faults
  ok := k.ok ∘ h.ok

/-! ### Updates of single blocks -/

variable {s0 s : State}

theorem LinkCtl.Ok.ofOffer {c : LinkCtl} (h : c.Ok) (o : Option Offer) : ({ c with offer := o } : LinkCtl).Ok :=
  ⟨h.tx, h.rx, h.error, h.queue⟩

@[simp] theorem Acts.withTrailer (h : Acts s0 s) (x : Trailer) : Acts s0 { s with trailer := x } :=
  h.trans ⟨rfl, rfl, rfl, rfl, rfl, rfl, rfl, rfl, rfl, rfl, rfl, rfl, rfl, rfl, .start, fun k => { k with }⟩

@[simp] theorem Acts.withShift (h : Acts s0 s) (x : Shift) : Acts s0 { s with shift := x } :=
  h.trans ⟨rfl, rfl, rfl, rfl, rfl, rfl, rfl, rfl, rfl, rfl, rfl, rfl, rfl, rfl, .start, fun k => { k with }⟩

@[simp] theorem Acts.withNotices (h : Acts s0 s) (x : List Notice) : Acts s0 { s with notices := x } :=
  h.trans ⟨rfl, rfl, rfl, rfl, rfl, rfl, rfl, rfl, rfl, rfl, rfl, rfl, rfl, rfl, .start, fun k => { k with }⟩

@[simp] theorem Acts.withNeut (h : Acts s0 s) (x : Bool) : Acts s0 { s with neut := x } :=
  h.trans ⟨rfl, rfl, rfl, rfl, rfl, rfl, rfl, rfl, rfl, rfl, rfl, rfl, rfl, rfl, .start, fun k => { k with }⟩

@[simp] theorem Acts.withFree (h : Acts s0 s) (x : Nat) : Acts s0 { s with free := x } :=
  h.trans ⟨rfl, rfl, rfl, rfl, rfl, rfl, rfl, rfl, rfl, rfl, rfl, rfl, rfl, rfl, .start, fun k => { k with }⟩

theorem Acts.ofGear (h : Acts s0 s) {x : Gear} (hx : s.gear.Ok → x.Ok) : Acts s0 { s with gear := x } :=
  h.trans ⟨rfl, rfl, rfl, rfl, rfl, rfl, rfl, rfl, rfl, rfl, rfl, rfl, rfl, rfl, .start,
    fun k => { k with gear := hx k.gear }⟩

theorem Acts.ofMotion (h : Acts s0 s) {x : Motion} (hx : s.motion.record.Ok → x.record.Ok) :
    Acts s0 { s with motion := x } :=
  h.trans ⟨rfl, rfl, rfl, rfl, rfl, rfl, rfl, rfl, rfl, rfl, rfl, rfl, rfl, rfl, .start,
    fun k => { k with motion := hx k.motion }⟩

theorem Acts.ofFaults (h : Acts s0 s) {x : Faults} (hk : s.faults.Keeps x) (hx : s.faults.Ok → x.Ok) :
    Acts s0 { s with faults := x } :=
  h.trans ⟨rfl, rfl, rfl, rfl, rfl, rfl, rfl, rfl, rfl, rfl, rfl, rfl, rfl, rfl, hk,
    fun k => { k with faults := hx k.faults }⟩

theorem Acts.ofHitch (h : Acts s0 s) {x : Hitch} (hx : s.hitch.Ok → x.Ok)
    (hm : s.Ok → x.memory ≠ none → s.mode.op = .run) : Acts s0 { s with hitch := x } :=
  h.trans ⟨rfl, rfl, rfl, rfl, rfl, rfl, rfl, rfl, rfl, rfl, rfl, rfl, rfl, rfl, .start,
    fun k => { k with hitch := hx k.hitch, memory := hm k }⟩

/-- A change of the front axle and the arbiter together. -/
theorem Acts.ofFill (h : Acts s0 s) {x : Fac} {a : Arbiter} (hx : s.Ok → x.Ok ∧ FillOk a x.state) :
    Acts s0 { s with fac := x, arbiter := a } :=
  h.trans ⟨rfl, rfl, rfl, rfl, rfl, rfl, rfl, rfl, rfl, rfl, rfl, rfl, rfl, rfl, .start,
    fun k => { k with fac := (hx k).1, fill := (hx k).2 }⟩

theorem Acts.ofFac (h : Acts s0 s) {x : Fac} (hx : s.fac.Ok → x.Ok) (hst : x.state = s.fac.state) :
    Acts s0 { s with fac := x } :=
  h.ofFill fun k => ⟨hx k.fac, hst ▸ k.fill⟩

theorem Acts.ofArbiter (h : Acts s0 s) {a : Arbiter} (ha : FillOk s.arbiter s.fac.state → FillOk a s.fac.state) :
    Acts s0 { s with arbiter := a } :=
  h.ofFill fun k => ⟨k.fac, ha k.fill⟩

@[simp] theorem State.announceAll_acts (h : Acts s0 s) (ns : List Notice) : Acts s0 (s.announceAll ns) := h.withNotices _

@[simp] theorem State.announce_acts (h : Acts s0 s) (n : Notice) : Acts s0 (s.announce n) := h.withNotices _

@[simp] theorem State.setNeut_acts (h : Acts s0 s) : Acts s0 s.setNeut := h.withNeut _

@[simp] theorem State.withOrder_acts (h : Acts s0 s) (o : Order) : Acts s0 (s.withOrder o) := h.withShift _

@[simp] theorem State.onlyIf_acts (h : Acts s0 s) (c : Bool) {f : State → State} (hf : Acts s0 s → Acts s0 (f s)) :
    Acts s0 (s.onlyIf c f) := by
  unfold State.onlyIf; split
  · exact hf h
  · exact h

/-! ### The Fault List (R177, R178) -/

theorem Distinct.sublist {es fs : List FaultEntry} (h : Distinct fs) (k : es.Sublist fs) : Distinct es :=
  List.Pairwise.sublist k h

theorem Distinct.map {es : List FaultEntry} (h : Distinct es) {f : FaultEntry → FaultEntry}
    (hf : ∀ e, (f e).kind = e.kind ∧ (f e).index = e.index) : Distinct (es.map f) := by
  unfold Distinct at *
  rw [List.pairwise_map]
  exact h.imp fun {a b} n => by rw [(hf a).1, (hf a).2, (hf b).1, (hf b).2]; exact n

theorem dropOldestStored_some {es fs : List FaultEntry} (h : dropOldestStored es = some fs) :
    fs.Sublist es ∧ fs.length + 1 = es.length := by
  induction es generalizing fs with
  | nil => simp [dropOldestStored] at h
  | cons e es ih =>
    simp only [dropOldestStored] at h
    split at h
    · cases h; exact ⟨List.sublist_cons_self _ _, rfl⟩
    · simp only [Option.map_eq_some_iff] at h
      obtain ⟨gs, hg, rfl⟩ := h
      have := ih hg
      exact ⟨this.1.cons_cons e, by simp [this.2]⟩

theorem FaultEntry.is_iff {e : FaultEntry} {k : FaultKind} {i : Nat} : e.is k i = true ↔ e.kind = k ∧ e.index = i := by
  simp [FaultEntry.is]

theorem Distinct.concat {es : List FaultEntry} (h : Distinct es) {k : FaultKind} {i : Nat} {e : FaultEntry}
    (hk : e.kind = k ∧ e.index = i) (none : ∀ x ∈ es, x.is k i = false) : Distinct (es ++ [e]) := by
  unfold Distinct at *
  rw [List.pairwise_append]
  refine ⟨h, by simp, ?_⟩
  intro a ha b hb
  simp only [List.mem_singleton] at hb
  subst hb
  intro hab
  have := none a ha
  rw [← Bool.not_eq_true, FaultEntry.is_iff, ← hk.1, ← hk.2] at this
  exact this hab

theorem Faults.raised_ok {f : Faults} (h : f.Ok) (k : FaultKind) (i : Nat) (t : Timer) : (f.raised k i t).Ok := by
  have new : ∀ es : List FaultEntry, es.Sublist f.entries → es.length < maxEntries →
      (∀ x ∈ f.entries, x.is k i = false) →
      ({ f with entries := es ++ [⟨k, i, false, 1, 0, t⟩] } : Faults).Ok := by
    intro es sub len none
    refine ⟨by simp; omega, ?_, ?_, h.position⟩
    · exact (h.distinct.sublist sub).concat ⟨rfl, rfl⟩ fun x hx => none x (sub.subset hx)
    · intro e he
      simp only [List.mem_append, List.mem_singleton] at he
      rcases he with he | rfl
      · exact h.counts e (sub.subset he)
      · simp
  unfold Faults.raised
  simp only
  split
  · refine ⟨by simpa using h.size, h.distinct.map ?_, ?_, h.position⟩
    · intro e; split <;> simp
    · intro e he
      simp only [List.mem_map] at he
      obtain ⟨x, hx, rfl⟩ := he
      have := h.counts x hx
      split
      · simp only; omega
      · exact this
  · rename_i hany
    have none : ∀ x ∈ f.entries, x.is k i = false := by simpa using hany
    split
    · exact new _ (List.Sublist.refl _) ‹_› none
    · split
      · rename_i es hes
        have d := dropOldestStored_some hes
        have := h.size
        exact new es d.1 (by omega) none
      · exact ⟨h.size, h.distinct, h.counts, h.position⟩

theorem Faults.cleared_ok {f : Faults} (h : f.Ok) (k : FaultKind) (i : Nat) : (f.cleared k i).Ok := by
  refine ⟨by simpa [Faults.cleared] using h.size, h.distinct.map ?_, ?_, h.position⟩
  · intro e; split <;> simp
  · intro e he
    simp only [Faults.cleared, List.mem_map] at he
    obtain ⟨x, hx, rfl⟩ := he
    have := h.counts x hx
    split <;> exact this

@[simp] theorem State.raise_acts (h : Acts s0 s) (k : FaultKind) (i : Nat) : Acts s0 (s.raise k i) :=
  h.ofFaults (.raised .start k i _) fun f => Faults.raised_ok f k i _

theorem State.gone_acts (h : Acts s0 s) {k : FaultKind} (hk : byReaction k = true) (i : Nat) :
    Acts s0 (s.gone k i) :=
  h.ofFaults (.cleared .start hk) fun f => Faults.cleared_ok f k i

/-! ### Motion (R22 to R34) -/

theorem tdiv8_between (x : Int) : (0 ≤ x → 0 ≤ x.tdiv 8 ∧ x.tdiv 8 ≤ x) ∧ (x ≤ 0 → x ≤ x.tdiv 8 ∧ x.tdiv 8 ≤ 0) := by
  rcases Int.le_total 0 x with h | h
  · rw [Int.tdiv_eq_ediv_of_nonneg h]; omega
  · obtain ⟨y, rfl⟩ : ∃ y, x = -y := ⟨-x, by omega⟩
    rw [Int.neg_tdiv, Int.tdiv_eq_ediv_of_nonneg (by omega)]; omega

theorem filterOf_bounds {full valid : Bool} {f v : Int} (hf : inPermille f) (hv : inPermille v) :
    inPermille (filterOf full valid f v) := by
  have t := tdiv8_between (v - f)
  unfold filterOf inPermille at *
  split
  · split
    · rcases Int.le_total 0 (v - f) with h | h
      · have := t.1 h; omega
      · have := t.2 h; omega
    · exact hf
  · omega

theorem slipOf_bounds (valid : Bool) (vw vg : Int) : inPermille (slipOf valid vw vg) := by
  unfold slipOf clamp inPermille
  split <;> omega

@[simp] theorem State.recompute_acts (h : Acts s0 s) (full : Bool) : Acts s0 (s.recompute full) := by
  refine h.ofMotion fun k => ?_
  refine ⟨slipOf_bounds _ _ _, filterOf_bounds k.slipF (slipOf_bounds _ _ _), ?_⟩
  intro hv
  simp only at hv
  simp only [hv, slipOf, filterOf]
  simp

@[simp] theorem State.evalStandstill_acts (h : Acts s0 s) : Acts s0 s.evalStandstill := by
  unfold State.evalStandstill
  simp only
  split
  · split
    · exact h
    · exact h.ofMotion id
  · exact h.ofMotion fun k => ⟨k.slip, k.slipF, k.invalid⟩

@[simp] theorem State.evalCoupled_acts (h : Acts s0 s) : Acts s0 s.evalCoupled :=
  h.ofMotion fun k => ⟨k.slip, k.slipF, k.invalid⟩

/-! ### Trailer (R147 to R154) -/

@[simp] theorem State.holdIfLatched_acts (h : Acts s0 s) : Acts s0 s.holdIfLatched := h.withTrailer _

@[simp] theorem State.trailerEvaluate_acts (h : Acts s0 s) : Acts s0 s.trailerEvaluate := by
  unfold State.trailerEvaluate; simp [h]

@[simp] theorem State.openWindow_acts (h : Acts s0 s) : Acts s0 s.openWindow := by
  unfold State.openWindow; simp [h]

@[simp] theorem State.closeWindow_acts (h : Acts s0 s) : Acts s0 s.closeWindow := by
  unfold State.closeWindow; split <;> simp [h]

@[simp] theorem State.lineOk_acts (h : Acts s0 s) : Acts s0 s.lineOk := by
  unfold State.lineOk; exact State.gone_acts (h.withTrailer _) rfl 0

@[simp] theorem State.lineCheckEval_acts (h : Acts s0 s) : Acts s0 s.lineCheckEval := by
  unfold State.lineCheckEval; split
  · split <;> simp [h]
  · simp [h]

end Sys2Proof.Machine
end

