-- ==== Sys2Proof/Laws/FillActs.lean ====
section
/-! SUPPORT. What the operations of the front axle and of the Fill Arbiter can do at most (chapters 5 and 6). -/

namespace Sys2Proof.Machine

variable {s0 s : State}

/-! ### Slots (R86, R91) -/

theorem Arbiter.count_take_shift (a : Arbiter) : (a.take .shift).count .fac = a.count .fac := by
  unfold Arbiter.take Arbiter.count
  split
  · rename_i h; simp [h]
  · split
    · rename_i h; simp [h]
    · rfl

theorem Arbiter.count_take_fac (a : Arbiter) (h : 1 ≤ a.count .free) (k : a.count .fac = 0) :
    (a.take .fac).count .fac = 1 := by
  obtain ⟨x, y, w, f⟩ := a
  revert h k
  cases x <;> cases y <;> simp [Arbiter.take, Arbiter.count]

theorem Arbiter.count_giveBack_fac (a : Arbiter) : (a.giveBack .fac).count .fac = 0 := by
  obtain ⟨x, y, w, f⟩ := a
  cases x <;> cases y <;> simp [Arbiter.giveBack, Arbiter.count]

theorem Arbiter.count_giveBack_shift (a : Arbiter) : (a.giveBack .shift).count .fac = a.count .fac := by
  obtain ⟨x, y, w, f⟩ := a
  cases x <;> cases y <;> simp [Arbiter.giveBack, Arbiter.count]

@[simp] theorem Arbiter.take_facWait (a : Arbiter) (h : Holder) : (a.take h).facWait = a.facWait := by
  unfold Arbiter.take; split
  · rfl
  · split <;> rfl

theorem takes_shift (n : List Nat) (a : Arbiter) :
    (n.foldl (fun a _ => a.take .shift) a).facWait = a.facWait ∧
      (n.foldl (fun a _ => a.take .shift) a).count .fac = a.count .fac := by
  induction n generalizing a with
  | nil => simp
  | cons x xs ih =>
    have := ih (a.take .shift)
    simp only [List.foldl_cons, this, Arbiter.take_facWait, Arbiter.count_take_shift, and_self]

@[simp] theorem Arbiter.count_shiftWait (a : Arbiter) (w : Option Nat) (h : Holder) :
    ({ a with shiftWait := w } : Arbiter).count h = a.count h := rfl

@[simp] theorem Arbiter.count_facWait (a : Arbiter) (w : Bool) (h : Holder) :
    ({ a with facWait := w } : Arbiter).count h = a.count h := rfl

/-! ### The FAC state (R95, R103 to R107) -/

@[simp] theorem State.facCheckOk_fac (s : State) :
    s.facCheckOk.fac = { s.fac with check := none, noRelease := false } ∧ s.facCheckOk.arbiter = s.arbiter := ⟨rfl, rfl⟩

theorem State.facCheckOk_acts (h : Acts s0 s) : Acts s0 s.facCheckOk := by
  unfold State.facCheckOk
  exact State.gone_acts (h.ofFac (x := { s.fac with check := none, noRelease := false })
    (fun k => ⟨by simp, k.fill⟩) rfl) rfl 0

@[simp] theorem State.facCheckEval_acts (h : Acts s0 s) : Acts s0 s.facCheckEval := by
  unfold State.facCheckEval
  split
  · split
    · split
      · exact h
      · rename_i hst _ _
        exact h.ofFac (fun k => ⟨fun _ => hst, k.fill⟩) rfl
    · exact State.facCheckOk_acts h
  · exact h

/-- What `setFac` does to the front axle, and that it leaves the arbiter. -/
theorem State.setFac_fac (s : State) (st : FacState) :
    (s.setFac st).arbiter = s.arbiter ∧
    (s.setFac st).fac = (if s.fac.state = .released ∧ st ≠ .released
      then { s.fac with state := st, check := none, noRelease := false } else { s.fac with state := st }) := by
  unfold State.setFac
  split <;> simp

/-- The fields of the front axle that `setFac` leaves. -/
theorem State.setFac_keeps (s : State) (st : FacState) :
    (s.setFac st).fac.state = st ∧ (s.setFac st).fac.fillTimer = s.fac.fillTimer ∧
    (s.setFac st).fac.pulseTimer = s.fac.pulseTimer ∧
    ((s.setFac st).fac.check = none ∨ s.fac.state ≠ .released ∨ st = .released) := by
  rw [(s.setFac_fac st).2]
  split
  · simp
  · rename_i h
    refine ⟨rfl, rfl, rfl, ?_⟩
    by_cases hs : s.fac.state = .released
    · exact Or.inr (Or.inr (Classical.not_not.mp fun hn => h ⟨hs, hn⟩))
    · exact Or.inr (Or.inl hs)

/-- After a change of the FAC state out of RELEASED no check runs and no condition is present. -/
theorem State.setFac_check (s : State) (st : FacState) (k : s.fac.Ok) (hst : st ≠ .released) :
    (s.setFac st).fac.check = none ∧ (s.setFac st).fac.noRelease = false := by
  rw [(s.setFac_fac st).2]
  split
  · simp
  · rename_i h
    have hs : s.fac.state ≠ .released := fun e => h ⟨e, hst⟩
    constructor
    · exact Classical.not_not.mp fun n => hs (k.check (Or.inl n))
    · exact Bool.eq_false_iff.mpr fun n => hs (k.check (Or.inr n))

/-- A state that differs in the front axle, the arbiter, the Fault List and the announcements alone. -/
theorem Acts.ofFillState (h : Acts s0 s) {t : State}
    (e : t = { s with fac := t.fac, arbiter := t.arbiter, faults := t.faults, notices := t.notices })
    (hk : s.faults.Keeps t.faults) (hf : s.faults.Ok → t.faults.Ok) (hx : s.Ok → t.fac.Ok ∧ FillOk t.arbiter t.fac.state) : Acts s0 t := by
  refine h.trans ⟨?_, ?_, ?_, ?_, ?_, ?_, ?_, ?_, ?_, ?_, ?_, ?_, ?_, ?_, hk, fun k => ?_⟩
  case refine_15 =>
    have hx := hx k
    have hf := hf k.faults
    rw [e]
    exact { k with faults := hf, fac := hx.1, fill := hx.2 }
  all_goals rw [e]

theorem State.setFac_faults (s : State) (st : FacState) (h : s.faults.Ok) : (s.setFac st).faults.Ok := by
  unfold State.setFac State.facCheckOk
  split
  · exact Faults.cleared_ok h _ _
  · exact h

theorem State.setFac_stands (s : State) (st : FacState) : s.faults.Keeps (s.setFac st).faults := by
  unfold State.setFac State.facCheckOk
  split
  · exact .cleared .start rfl
  · exact .start

theorem State.setFac_eta (s : State) (st : FacState) (x : Fac) (a : Arbiter) :
    ({ s.setFac st with fac := x, arbiter := a } : State) =
      { s with fac := x, arbiter := a, faults := (s.setFac st).faults, notices := (s.setFac st).notices } := by
  unfold State.setFac State.facCheckOk State.gone State.announce
  split <;> rfl

/-- `setFac` looks at the front axle alone and leaves the arbiter as it is. -/
theorem State.setFac_arbiter (s : State) (st : FacState) (a : Arbiter) :
    ({ s with arbiter := a } : State).setFac st = { s.setFac st with arbiter := a } := by
  unfold State.setFac State.facCheckOk State.gone State.announce
  simp only
  split <;> rfl

/-- A change of the FAC state whose timers, arbiter and fill part are given at once. -/
theorem Acts.ofSetFac (h : Acts s0 s) (st : FacState) {x : Fac} {a : Arbiter}
    (hx : s.Ok → x.Ok ∧ FillOk a x.state) : Acts s0 { s.setFac st with fac := x, arbiter := a } :=
  h.ofFillState (s.setFac_eta st x a) (s.setFac_stands st) (s.setFac_faults st) hx

theorem State.facEngaged_eta (s : State) (a : Arbiter) :
    ({ s.facEngaged with arbiter := a } : State) =
      { s.setFac .engaged with fac := s.facEngaged.fac, arbiter := a } := rfl

theorem State.facEngaged_arbiter (s : State) (a : Arbiter) :
    ({ s with arbiter := a } : State).facEngaged = { s.facEngaged with arbiter := a } := by
  unfold State.facEngaged
  rw [State.setFac_arbiter]
  rfl

theorem State.facGranted_arbiter (s : State) (a : Arbiter) :
    ({ s with arbiter := a } : State).facGranted =
      { s.setFac .releaseFill with fac := s.facGranted.fac, arbiter := a } := by
  unfold State.facGranted
  rw [State.setFac_arbiter]
  rfl

/-- ENGAGED with nothing to hand back, together with what the arbiter holds then. -/
theorem State.facEngaged_acts (h : Acts s0 s) {a : Arbiter} (ha : s.Ok → a.facWait = false ∧ a.count .fac = 0) :
    Acts s0 { s.facEngaged with arbiter := a } := by
  rw [State.facEngaged_eta]
  refine h.ofSetFac .engaged fun k => ?_
  have c := s.setFac_check .engaged k.fac (by simp)
  have t := (s.setFac_keeps .engaged).1
  have ha := ha k
  simp only [State.facEngaged] at *
  refine ⟨⟨?_, ?_⟩, ⟨?_, ?_⟩⟩ <;> simp [c, t, ha]

/-- The grant starts the fill, together with what the arbiter holds then. -/
theorem State.facGranted_acts (h : Acts s0 s) {a : Arbiter} (ha : s.Ok → a.facWait = false ∧ a.count .fac = 1) :
    Acts s0 ({ s with arbiter := a } : State).facGranted := by
  rw [State.facGranted_arbiter]
  refine h.ofSetFac .releaseFill fun k => ?_
  have c := s.setFac_check .releaseFill k.fac (by simp)
  have t := (s.setFac_keeps .releaseFill).1
  have ha := ha k
  simp only [State.facGranted] at *
  refine ⟨⟨?_, ?_⟩, ⟨?_, ?_⟩⟩ <;> simp [c, t, ha]

/-! ### Decisions (R88 to R90) -/

@[simp] theorem State.shiftGranted_acts (h : Acts s0 s) : Acts s0 s.shiftGranted := by
  unfold State.shiftGranted
  split
  · exact h
  · split
    · simp only
      split <;> simp [h]
    · exact h

@[simp] theorem State.grantShift_acts (h : Acts s0 s) : Acts s0 s.grantShift := by
  unfold State.grantShift
  split
  · exact h
  · split
    · refine State.shiftGranted_acts (h.ofArbiter fun k => ?_)
      have t := takes_shift (List.range ‹Nat›) s.arbiter
      exact ⟨by simp only; rw [t.1]; exact k.wait, by rw [Arbiter.count_shiftWait, t.2]; exact k.slot⟩
    · exact h

@[simp] theorem State.grantFac_acts (h : Acts s0 s) : Acts s0 s.grantFac := by
  unfold State.grantFac
  split
  · rename_i hc
    split
    · rename_i hst
      refine State.facGranted_acts h fun k => ⟨rfl, ?_⟩
      rw [Arbiter.count_facWait]
      exact Arbiter.count_take_fac _ hc.2.1 (by rw [k.fill.slot, hst]; rfl)
    · rename_i hst
      exact h.ofArbiter fun k => absurd (k.wait.mp hc.1) hst
  · exact h

@[simp] theorem State.decideFill_acts (h : Acts s0 s) : Acts s0 s.decideFill := by
  unfold State.decideFill; split <;> simp [h]

/-! ### Requests, releases and withdrawals (R91 to R93, R103 to R106) -/

@[simp] theorem State.shiftRequest_acts (h : Acts s0 s) (n : Nat) : Acts s0 (s.shiftRequest n) :=
  State.decideFill_acts (h.ofArbiter fun k => ⟨k.wait, k.slot⟩)

@[simp] theorem State.shiftWithdraw_acts (h : Acts s0 s) : Acts s0 s.shiftWithdraw :=
  State.decideFill_acts (h.ofArbiter fun k => ⟨k.wait, k.slot⟩)

@[simp] theorem State.shiftGiveBack_acts (h : Acts s0 s) : Acts s0 s.shiftGiveBack :=
  State.decideFill_acts (h.ofArbiter fun k => ⟨k.wait, by rw [Arbiter.count_giveBack_shift]; exact k.slot⟩)

/-- In ENGAGED no fill is timed, no slot is held and no request waits. -/
theorem State.Ok.inEngaged (k : s.Ok) (hst : s.fac.state = .engaged) :
    s.fac.fillTimer = none ∧ s.fac.pulseTimer = none ∧ s.arbiter.count .fac = 0 ∧ s.arbiter.facWait = false := by
  have z := k.fill.slot
  have w := k.fill.wait
  have f := k.fac.fill
  simp only [hst] at z w f
  refine ⟨?_, ?_, by simpa using z, by simpa using w⟩
  · exact Classical.not_not.mp fun n => by simpa using f (Or.inl n)
  · exact Classical.not_not.mp fun n => by simpa using f (Or.inr n)

/-- A release decision from ENGAGED (R103). -/
theorem State.facRelease_acts (h : Acts s0 s) (hst : s.fac.state = .engaged) : Acts s0 s.facRelease := by
  have st : s.setFac .releaseWait = ({ s with fac := { s.fac with state := .releaseWait } } : State).announce .refresh := by
    unfold State.setFac; simp [hst]
  unfold State.facRelease State.facRequest
  simp only [st]
  split
  · apply State.decideFill_acts
    refine h.ofFillState (by simp [State.facEngaged, State.setFac, State.announce, State.announceAll])
      (by simp [State.facEngaged, State.setFac]; exact .start) (by
      simp [State.facEngaged, State.setFac]) fun k => ?_
    have n := k.inEngaged hst
    have c := s.setFac_check .releaseWait k.fac (by simp)
    simp only [st, State.announce_fields] at c
    refine ⟨⟨?_, ?_⟩, ⟨?_, ?_⟩⟩ <;> simp [State.facEngaged, State.setFac, n, c]
  · apply State.decideFill_acts
    refine h.ofFillState rfl .start id fun k => ?_
    have n := k.inEngaged hst
    have c := s.setFac_check .releaseWait k.fac (by simp)
    simp only [st, State.announce_fields] at c
    refine ⟨⟨?_, ?_⟩, ⟨?_, ?_⟩⟩ <;> simp [n, c]

@[simp] theorem State.facEngage_acts (h : Acts s0 s) : Acts s0 s.facEngage := by
  unfold State.facEngage
  split
  · exact h
  · rename_i hst
    exact State.decideFill_acts (State.facEngaged_acts h fun k => ⟨rfl, by
      rw [Arbiter.count_facWait, k.fill.slot, hst]; rfl⟩)
  · rename_i hst
    exact State.decideFill_acts (State.facEngaged_acts h fun k => ⟨by
      have := k.fill.wait; simp only [hst] at this; simpa [Arbiter.giveBack] using this,
      Arbiter.count_giveBack_fac _⟩)
  · rename_i hst
    have e : s.facEngaged = { s.facEngaged with arbiter := s.arbiter } := State.facEngaged_arbiter s s.arbiter
    rw [e]
    exact State.facEngaged_acts h fun k => ⟨by
      have := k.fill.wait; simp only [hst] at this; simpa using this, by rw [k.fill.slot, hst]; rfl⟩

@[simp] theorem State.facEvaluate_acts (h : Acts s0 s) : Acts s0 s.facEvaluate := by
  unfold State.facEvaluate
  split
  · simp [h]
  · split
    · exact h
    · split <;> simp [h]
    · split
      · rename_i hc; exact State.facRelease_acts h hc.1
      · exact h

@[simp] theorem State.arbiterBrakeStart_acts (h : Acts s0 s) : Acts s0 s.arbiterBrakeStart := by
  unfold State.arbiterBrakeStart
  split
  · rename_i hw
    rw [State.facEngaged_arbiter]
    exact State.decideFill_acts (State.facEngaged_acts h fun k => ⟨rfl, by
      rw [Arbiter.count_facWait, k.fill.slot, k.fill.wait.mp hw]; rfl⟩)
  · split
    · rename_i hw _
      rw [State.facEngaged_arbiter]
      exact State.decideFill_acts (State.facEngaged_acts h fun k =>
        ⟨by simpa [Arbiter.giveBack] using hw, Arbiter.count_giveBack_fac _⟩)
    · exact h

@[simp] theorem State.facBrakeNews_acts (h : Acts s0 s) (n : MotionNews) : Acts s0 (s.facBrakeNews n) :=
  h.ofFac (fun k => ⟨k.check, k.fill⟩) rfl

/-- The release fill ends (R104). -/
theorem State.facFilled_acts (h : Acts s0 s) (hst : s.fac.state = .releaseFill) : Acts s0 s.facFilled := by
  have st : s.setFac .released = ({ s with fac := { s.fac with state := .released } } : State).announce .refresh := by
    unfold State.setFac; simp [hst]
  unfold State.facFilled
  simp only [st]
  apply State.decideFill_acts
  apply State.facCheckEval_acts
  refine h.ofFillState rfl .start id fun k => ?_
  have w := k.fill.wait
  simp only [hst] at w
  refine ⟨⟨?_, ?_⟩, ⟨?_, ?_⟩⟩
  · simp
  · simp
  · simpa [Arbiter.giveBack] using w
  · simp [Arbiter.count_giveBack_fac]

end Sys2Proof.Machine
end

