-- ==== Sys2Proof/Laws/GearActs.lean ====
section
/-! SUPPORT. What the Gear Selector and the acts on an order in flight can do at most (chapters 3 and 4). -/

namespace Sys2Proof.Machine

variable {s0 s : State}

/-! ### The selector's record -/

/-- The same shuttle record and flag. -/
structure Gear.Same (a b : Gear) : Prop where
  shuttle : b.shuttle = a.shuttle
  flag : b.flag = a.flag

theorem Gear.Same.ok {a b : Gear} (h : a.Same b) (k : a.Ok) : b.Ok := by
  unfold Gear.Ok; rw [h.shuttle, h.flag]; exact k

theorem Gear.Same.trans {a b c : Gear} (h : a.Same b) (k : b.Same c) : a.Same c :=
  ⟨k.shuttle.trans h.shuttle, k.flag.trans h.flag⟩

theorem Gear.Same.refl (a : Gear) : a.Same a := ⟨rfl, rfl⟩

theorem Gear.setDir_same (g : Gear) (d : DirState) : g.Same (g.setDir d) := ⟨rfl, rfl⟩

theorem Gear.withPre_same (g : Gear) (d : Dir) (t : Option Nat) : g.Same (g.withPre d t) := by cases d <;> exact ⟨rfl, rfl⟩

theorem Gear.withTarget_same (g : Gear) (t : Option Nat) : g.Same (g.withTarget t) := by
  unfold Gear.withTarget
  split
  · exact g.withPre_same _ _
  · exact ⟨rfl, rfl⟩
  · exact ⟨rfl, rfl⟩

theorem Gear.released_same (g : Gear) (d : Dir) (r : Option Nat) : g.Same (g.released d r) :=
  ((g.setDir_same .n).trans (Gear.withPre_same _ d r)).trans ⟨rfl, rfl⟩

theorem Gear.afterReport_same (g : Gear) (o : Order) (r : OrderResult) : g.Same (g.afterReport o r) := by
  have t : ∀ c : Option Nat, g.Same ({ g with current := c } : Gear) := fun _ => ⟨rfl, rfl⟩
  unfold Gear.afterReport
  split
  · split
    · exact ⟨rfl, rfl⟩
    · simp only
      split
      · exact (t _).trans (Gear.withTarget_same _ _)
      · exact ⟨rfl, rfl⟩
  · split
    · exact ⟨rfl, rfl⟩
    · simp only
      split
      · exact (t _).trans (Gear.withTarget_same _ _)
      · exact ⟨rfl, rfl⟩
  · exact ⟨rfl, rfl⟩
  · split <;> exact ⟨rfl, rfl⟩
  · exact .refl g
  · split <;> exact ⟨rfl, rfl⟩

theorem Gear.afterEnd_same (g : Gear) (o : Order) (r : OrderResult) : g.Same (g.afterEnd o r) := by
  unfold Gear.afterEnd; split
  · exact ⟨rfl, rfl⟩
  · exact g.afterReport_same o r

theorem Gear.dropShuttle_ok (g : Gear) : g.dropShuttle.Ok := by simp [Gear.Ok, Gear.dropShuttle]

theorem Acts.sameGear (h : Acts s0 s) {f : Gear → Gear} (hf : ∀ g : Gear, g.Same (f g)) : Acts s0 (s.withGear f) :=
  h.ofGear (hf _).ok

theorem Acts.dropped (h : Acts s0 s) {f : Gear → Gear} (hf : ∀ g : Gear, (f g).shuttle = none ∧ (f g).flag = .none) :
    Acts s0 (s.withGear f) :=
  h.ofGear fun _ => by simp [Gear.Ok, hf]

@[simp] theorem State.withTarget_acts (h : Acts s0 s) (t : Option Nat) : Acts s0 (s.withGear (·.withTarget t)) :=
  h.sameGear fun g => g.withTarget_same t

@[simp] theorem State.gearReleased_acts (h : Acts s0 s) (d : Dir) (r : Option Nat) :
    Acts s0 (s.withGear fun g => g.released d r) := h.sameGear fun g => g.released_same d r

/-- The ShiftRecord mailbox is the one mailbox a reaction writes (R84). -/
@[simp] theorem State.shiftRecord_acts (h : Acts s0 s) (data : List Byte) : Acts s0 (s.writeMail .shiftRecord data) :=
  h.trans ⟨rfl, rfl, rfl, rfl, rfl, rfl, rfl, rfl, rfl, rfl, rfl, rfl, rfl, rfl, .start,
    fun k => { k with tLink := k.tLink.ofOffer _ }⟩

@[simp] theorem State.keepTarget_acts (h : Acts s0 s) : Acts s0 s.keepTarget := by
  unfold State.keepTarget; split <;> simp [h]

/-! ### Orders taken (R45 to R52) -/

@[simp] theorem State.enterOrder_acts (h : Acts s0 s) (o : Order) : Acts s0 (s.enterOrder o) := by
  have a : Acts s0 ({ s with shift := { s.shift with order := some o } } : State).setNeut :=
    State.setNeut_acts (h.withShift _)
  unfold State.enterOrder
  simp only
  split
  · exact State.shiftRequest_acts a _
  · exact a

@[simp] theorem State.takeOrder_acts (h : Acts s0 s) (k : OrderKind) (a b : Option Nat) (d e : Dir) :
    Acts s0 (s.takeOrder k a b d e) := by
  unfold State.takeOrder; simp (maxDischargeDepth := 9) [h]

@[simp] theorem State.issueSwap_acts (h : Acts s0 s) (a b : Nat) : Acts s0 (s.issueSwap a b) := by
  unfold State.issueSwap; simp (maxDischargeDepth := 9) [h]

@[simp] theorem State.issueFree_acts (h : Acts s0 s) (b : Nat) : Acts s0 (s.issueFree b) := by
  unfold State.issueFree; simp (maxDischargeDepth := 9) [h]

@[simp] theorem State.issueRelease_acts (h : Acts s0 s) (d : Dir) : Acts s0 (s.issueRelease d) := by
  unfold State.issueRelease
  exact State.takeOrder_acts (h.sameGear fun g => g.released_same _ _) _ _ _ _ _

@[simp] theorem State.requestInN_acts (h : Acts s0 s) (x : Dir) : Acts s0 (s.requestInN x) := by
  have p : Acts s0 (s.withGear fun g => { g with presel := x }) := h.sameGear fun g => ⟨rfl, rfl⟩
  unfold State.requestInN
  split
  · exact h
  · exact State.takeOrder_acts (State.keepTarget_acts p) _ _ _ _ _

@[simp] theorem State.issueShuttle_acts (h : Acts s0 s) (x y : Dir) : Acts s0 (s.issueShuttle x y) := by
  unfold State.issueShuttle
  exact State.takeOrder_acts (h.dropped fun g => ⟨rfl, rfl⟩) _ _ _ _ _

@[simp] theorem State.keepShuttle_acts (h : Acts s0 s) (x : Dir) : Acts s0 (s.keepShuttle x) := by
  unfold State.keepShuttle
  split
  · exact h
  · exact h.ofGear fun _ => by simp [Gear.Ok]

@[simp] theorem State.scheduleTest_acts (h : Acts s0 s) : Acts s0 s.scheduleTest := by
  have stop : Acts s0 (s.withGear fun g => { g with deferral := .stopped }) := h.sameGear fun g => ⟨rfl, rfl⟩
  unfold State.scheduleTest
  split
  · exact h
  · simp only
    split
    · exact h
    · split
      · exact State.issueSwap_acts (stop.sameGear fun g => g.withTarget_same _) _ _
      · exact stop
      · split
        · split
          · exact h.sameGear fun g => ⟨rfl, rfl⟩
          · exact h
        · exact State.issueSwap_acts (stop.sameGear fun g => g.withTarget_same _) _ _

@[simp] theorem State.decideEngaged_acts (h : Acts s0 s) (m : Bool) : Acts s0 (s.decideEngaged m) := by
  unfold State.decideEngaged
  split
  · split
    · simp (maxDischargeDepth := 9) [h]
    · split <;> simp (maxDischargeDepth := 9) [h]
  · exact h

@[simp] theorem State.decideFree_acts (h : Acts s0 s) : Acts s0 s.decideFree := by
  unfold State.decideFree
  split
  · exact h
  · split <;> simp (maxDischargeDepth := 9) [h]

@[simp] theorem State.decideRequest_acts (h : Acts s0 s) (m : Bool) (x y : Dir) : Acts s0 (s.decideRequest m x y) := by
  unfold State.decideRequest
  split
  · simp (maxDischargeDepth := 9) [h]
  · split
    · exact h
    · split <;> simp (maxDischargeDepth := 9) [h]

@[simp] theorem State.decideIdle_acts (h : Acts s0 s) (m : Bool) : Acts s0 (s.decideIdle m) := by
  unfold State.decideIdle
  split
  · split <;> simp (maxDischargeDepth := 9) [h]
  · split <;> simp (maxDischargeDepth := 9) [h]
  all_goals exact h

/-! ### Order ends (R50, R71, R78, R82) -/

@[simp] theorem State.orderEnd_acts (h : Acts s0 s) (o : Order) (r : OrderResult) (c : Int) :
    Acts s0 (s.orderEnd o r c) := by
  have a : Acts s0 (({ s with shift := { s.shift with order := none } } : State).withGear fun g => g.afterEnd o r) :=
    (h.withShift _).sameGear fun g => g.afterEnd_same o r
  have b := State.shiftRecord_acts (State.keepTarget_acts a) (shiftRecordData o r c)
  unfold State.orderEnd
  apply State.decideIdle_acts
  apply State.setNeut_acts
  exact b.sameGear fun g => ⟨rfl, rfl⟩

@[simp] theorem State.abortSwap_acts (h : Acts s0 s) (o : Order) : Acts s0 (s.abortSwap o) := by
  unfold State.abortSwap
  split <;> simp (maxDischargeDepth := 9) [h]

@[simp] theorem State.handTarget_acts (h : Acts s0 s) (t : Option Nat) : Acts s0 (s.handTarget t) := by
  unfold State.handTarget
  split
  · exact h
  · simp only
    split
    · simp (maxDischargeDepth := 9) [h]
    · split <;> simp (maxDischargeDepth := 9) [h]

/-! ### A RELEASE or a new request on an order in flight (R48, R49, R80, R81) -/

@[simp] theorem State.endEngagement_acts (h : Acts s0 s) (o : Order) : Acts s0 (s.endEngagement o) := by
  unfold State.endEngagement
  split
  · exact h
  · simp only
    split <;> simp (maxDischargeDepth := 9) [h]

@[simp] theorem State.releaseOrder_acts (h : Acts s0 s) (o : Order) : Acts s0 (s.releaseOrder o) := by
  unfold State.releaseOrder
  split
  · split <;> simp (maxDischargeDepth := 9) [h]
  · split <;> simp (maxDischargeDepth := 9) [h]
  · simp (maxDischargeDepth := 9) [h]
  · exact h
  · exact h
  · split
    · exact (State.withOrder_acts h _).sameGear fun g => ⟨rfl, rfl⟩
    · simp (maxDischargeDepth := 9) [h]
    · simp (maxDischargeDepth := 9) [h]

@[simp] theorem State.release_acts (h : Acts s0 s) : Acts s0 s.release := by
  unfold State.release
  split
  · simp (maxDischargeDepth := 9) [h]
  · split <;> simp (maxDischargeDepth := 9) [h]

@[simp] theorem State.decideInFlight_acts (h : Acts s0 s) (o : Order) : Acts s0 (s.decideInFlight o) := by
  unfold State.decideInFlight
  split
  · simp (maxDischargeDepth := 9) [h]
  · split <;> simp (maxDischargeDepth := 9) [h]

@[simp] theorem State.gearDecide_acts (h : Acts s0 s) (m : Bool) : Acts s0 (s.gearDecide m) := by
  unfold State.gearDecide
  split
  · simp (maxDischargeDepth := 9) [h]
  · split <;> simp (maxDischargeDepth := 9) [h]

/-! ### Requests, headland, braking (R44, R52, R57, R58) -/

@[simp] theorem State.pressTarget_acts (h : Acts s0 s) (u d : Nat) : Acts s0 (s.pressTarget u d) := by
  unfold State.pressTarget
  split <;> simp (maxDischargeDepth := 9) [h]

@[simp] theorem State.newDirection_acts (h : Acts s0 s) : Acts s0 s.newDirection := by
  unfold State.newDirection
  split
  · exact h.dropped fun g => ⟨rfl, rfl⟩
  · exact h

@[simp] theorem State.newShiftMode_acts (h : Acts s0 s) : Acts s0 s.newShiftMode := by
  unfold State.newShiftMode
  split
  · exact h.sameGear fun g => ⟨rfl, rfl⟩
  · exact h

@[simp] theorem State.headlandTarget_acts (h : Acts s0 s) (g : Nat) : Acts s0 (s.headlandTarget g) := by
  unfold State.headlandTarget; simp (maxDischargeDepth := 9) [h]

@[simp] theorem State.headlandOut_acts (h : Acts s0 s) : Acts s0 s.headlandOut := by
  unfold State.headlandOut
  simp only
  split
  · split <;> simp (maxDischargeDepth := 9) [h]
  · exact h

@[simp] theorem State.headlandIn_acts (h : Acts s0 s) (g : Option Nat) (d : DirState) : Acts s0 (s.headlandIn g d) := by
  unfold State.headlandIn
  split
  · exact h
  · split
    · exact h
    · simp (maxDischargeDepth := 9) [h]
    · split <;> simp (maxDischargeDepth := 9) [h]

@[simp] theorem State.gearBrakeStart_acts (h : Acts s0 s) : Acts s0 s.gearBrakeStart := by
  have a : Acts s0 (s.handTarget s.heldTarget) := State.handTarget_acts h _
  unfold State.gearBrakeStart
  simp only
  split
  · split
    · exact State.abortSwap_acts a _
    · exact a
  · exact a

/-- What an accepted frame brings to the selector (R44, R45). -/
@[simp] theorem State.gearNews_acts (h : Acts s0 s) (n : OperatorNews) : Acts s0 (s.gearNews n) := by
  unfold State.gearNews
  refine State.onlyIf_acts ?_ _ fun k => State.gearDecide_acts k _
  apply State.pressTarget_acts
  refine State.onlyIf_acts ?_ _ State.newShiftMode_acts
  exact State.onlyIf_acts h _ State.newDirection_acts

/-! ### Changes of the Gear Table and of the operating state (R41 to R43, R83) -/

@[simp] theorem State.gearTableChanged_acts (h : Acts s0 s) : Acts s0 s.gearTableChanged := by
  unfold State.gearTableChanged
  apply State.gearDecide_acts
  exact h.sameGear fun g => ⟨rfl, rfl⟩

@[simp] theorem State.gearDegraded_acts (h : Acts s0 s) : Acts s0 s.gearDegraded := by
  have a : Acts s0 (s.withGear fun g => { g.dropShuttle with deferral := .stopped }) := h.dropped fun g => ⟨rfl, rfl⟩
  unfold State.gearDegraded
  simp only
  split
  · split <;> simp (maxDischargeDepth := 9) [a]
  · split <;> simp (maxDischargeDepth := 9) [a]

@[simp] theorem State.gearSafeStop_acts (h : Acts s0 s) : Acts s0 s.gearSafeStop := by
  unfold State.gearSafeStop
  apply State.release_acts
  exact h.dropped fun _ => ⟨rfl, rfl⟩

@[simp] theorem State.gearSetup_acts (h : Acts s0 s) : Acts s0 s.gearSetup := by
  have a : Acts s0 (s.withGear fun g => { g.dropShuttle with deferral := .stopped }) := h.dropped fun g => ⟨rfl, rfl⟩
  unfold State.gearSetup
  simp only
  split
  · simp (maxDischargeDepth := 9) [a]
  · split
    all_goals first | exact a | skip
    all_goals split <;> simp (maxDischargeDepth := 9) [a]

@[simp] theorem State.gearRun_acts (h : Acts s0 s) : Acts s0 s.gearRun := by
  unfold State.gearRun; simp (maxDischargeDepth := 9) [h]

end Sys2Proof.Machine
end

