-- ==== Sys2Proof/Laws/HitchActs.lean ====
section
/-! SUPPORT. What the Hitch Controller's transitions and the Headland Sequencer can do at most (chapter 8). -/

namespace Sys2Proof.Machine

variable {s0 s t : State}

/-- Correcting raise and the restore dial stand only in the states that have them (R126, R137). -/
structure Hitch.Sound (h : Hitch) : Prop where
  correcting : h.correcting = true → h.state = .control
  restore : h.restore ≠ none → h.state.keepsRestore = true

/-- A hitch transition: it writes the hitch alone, and of the hitch neither the Headland Memory nor the override. -/
structure HitchMoves (s t : State) : Prop where
  only : t = { s with hitch := t.hitch }
  memory : t.hitch.memory = s.hitch.memory
  override : t.hitch.override = s.hitch.override
  sound : s.hitch.Sound → t.hitch.Sound

theorem HitchMoves.refl (s : State) : HitchMoves s s := ⟨rfl, rfl, rfl, id⟩

theorem HitchMoves.trans {a b c : State} (h : HitchMoves a b) (k : HitchMoves b c) : HitchMoves a c :=
  ⟨by rw [k.only, h.only], k.memory.trans h.memory, k.override.trans h.override, k.sound ∘ h.sound⟩

theorem Hitch.Ok.toSound {h : Hitch} (k : h.Ok) : h.Sound := ⟨k.correcting, k.restore⟩

/-- A transition is a reaction. -/
theorem HitchMoves.acts (m : HitchMoves s t) (h : Acts s0 s) : Acts s0 t := by
  rw [m.only]
  refine h.ofHitch (fun k => ?_) fun k hm => k.memory (by rwa [m.memory] at hm)
  have := m.sound k.toSound
  exact ⟨this.correcting, this.restore, by rw [m.override, m.memory]; exact k.override⟩

theorem State.setHitch_moves (s : State) (st : HitchState) : HitchMoves s (s.setHitch st) := by
  refine ⟨rfl, rfl, rfl, fun k => ⟨?_, ?_⟩⟩
  · simp only [State.setHitch, Bool.and_eq_true, beq_iff_eq]
    exact fun h => h.2
  · simp only [State.setHitch]
    split
    · exact fun _ => ‹_›
    · exact fun h => absurd rfl h

theorem State.transportTest_moves (s : State) : HitchMoves s s.transportTest := by
  unfold State.transportTest
  split
  · exact s.setHitch_moves _
  · exact .refl s

theorem State.enterHold_moves (s : State) : HitchMoves s s.enterHold :=
  (s.setHitch_moves .hold).trans (State.transportTest_moves _)

theorem State.raisingTest_moves (s : State) : HitchMoves s s.raisingTest := by
  unfold State.raisingTest
  split
  · exact s.enterHold_moves
  · exact .refl s

theorem State.enterRaising_moves (s : State) : HitchMoves s s.enterRaising :=
  (s.setHitch_moves .raising).trans (State.raisingTest_moves _)

theorem State.enterLowering_moves (s : State) (r : Option Nat) : HitchMoves s (s.enterLowering r) := by
  have a : HitchMoves s { s.setHitch .lowering with hitch := { (s.setHitch .lowering).hitch with restore := r } } :=
    ⟨rfl, rfl, rfl, fun k => ⟨((s.setHitch_moves .lowering).sound k).correcting, fun _ => rfl⟩⟩
  unfold State.enterLowering
  simp only
  split
  · exact a
  · exact a.trans (State.enterHold_moves _)

theorem State.matchTest_moves (s : State) : HitchMoves s s.matchTest := by
  unfold State.matchTest
  split
  · exact s.setHitch_moves _
  · exact .refl s

theorem State.lowerPress_moves (s : State) : HitchMoves s s.lowerPress := by
  unfold State.lowerPress
  split
  · exact .refl s
  · exact s.enterLowering_moves _

theorem State.buttonPress_moves (s : State) (b : HitchButton) : HitchMoves s (s.buttonPress b) := by
  unfold State.buttonPress
  split
  · exact .refl s
  · split
    all_goals first
      | exact .refl s
      | exact s.enterRaising_moves
      | exact s.lowerPress_moves
      | exact s.enterHold_moves

theorem State.dialChanged_moves (s : State) : HitchMoves s s.dialChanged := by
  have a : HitchMoves s { s with hitch := { s.hitch with restore := none } } :=
    ⟨rfl, rfl, rfl, fun k => ⟨k.correcting, fun h => absurd rfl h⟩⟩
  unfold State.dialChanged
  simp only
  split
  · exact a.trans (State.matchTest_moves _)
  · exact a

theorem State.transportChanged_moves (s : State) : HitchMoves s s.transportChanged := by
  unfold State.transportChanged
  split
  · exact .refl s
  · split
    · exact s.transportTest_moves
    · split
      · exact s.enterHold_moves
      · exact .refl s

theorem State.hitchPosNews_moves (s : State) (v : Bool) : HitchMoves s (s.hitchPosNews v) := by
  have a : HitchMoves s (if v then s.transportTest else s) := by
    split
    · exact s.transportTest_moves
    · exact .refl s
  unfold State.hitchPosNews
  simp only
  generalize (if v = true then s.transportTest else s) = t at a ⊢
  split
  · exact a.trans (State.matchTest_moves _)
  · exact a.trans (State.raisingTest_moves _)
  · split
    · exact a
    · exact a.trans (State.enterHold_moves _)
  · split
    · exact a
    · exact a.trans (State.enterHold_moves _)
  · exact a
  · exact a

theorem State.hitchRun_moves (s : State) : HitchMoves s s.hitchRun :=
  (s.setHitch_moves .startupLock).trans (State.matchTest_moves _)

theorem State.afterLaw_moves (s : State) (u : Int) : HitchMoves s (s.afterLaw u) := by
  unfold State.afterLaw
  split
  · rename_i hst
    exact ⟨rfl, rfl, rfl, fun k => ⟨fun _ => hst, k.restore⟩⟩
  · split
    · exact s.setHitch_moves _
    · exact .refl s
  all_goals exact .refl s

/-! ### As reactions -/

@[simp] theorem State.setHitch_acts (h : Acts s0 s) (st : HitchState) : Acts s0 (s.setHitch st) := (s.setHitch_moves st).acts h
@[simp] theorem State.buttonPress_acts (h : Acts s0 s) (b : HitchButton) : Acts s0 (s.buttonPress b) :=
  (s.buttonPress_moves b).acts h
@[simp] theorem State.dialChanged_acts (h : Acts s0 s) : Acts s0 s.dialChanged := s.dialChanged_moves.acts h
@[simp] theorem State.transportChanged_acts (h : Acts s0 s) : Acts s0 s.transportChanged := s.transportChanged_moves.acts h
@[simp] theorem State.hitchPosNews_acts (h : Acts s0 s) (v : Bool) : Acts s0 (s.hitchPosNews v) :=
  (s.hitchPosNews_moves v).acts h

/-- The Headland Memory is filled in RUN alone, with the override (R139). -/
theorem State.headlandRaise_acts (h : Acts s0 s) (run : s.mode.op = .run) : Acts s0 s.headlandRaise := by
  have m := State.enterRaising_moves { s with hitch := { s.hitch with memory := some s.headlandSaved } }
  have e : s.headlandRaise = { s with hitch := s.headlandRaise.hitch } := by
    unfold State.headlandRaise
    simp only
    rw [m.only]
  rw [e]
  refine h.ofHitch (fun k => ?_) fun _ _ => run
  have k := m.sound ⟨k.correcting, k.restore⟩
  exact ⟨k.correcting, k.restore, by simp [State.headlandRaise, m.memory]⟩

/-- The Headland Memory is emptied, and the override with it (R140). -/
theorem State.headlandLower_acts (h : Acts s0 s) (m : HeadlandMemory) : Acts s0 (s.headlandLower m) := by
  have l := s.enterLowering_moves (restoreDial s.intake.record.dial m.dial)
  unfold State.headlandLower
  simp only
  rw [l.only]
  refine h.ofHitch (fun k => ?_) fun _ n => absurd rfl n
  have k := l.sound k.toSound
  exact ⟨k.correcting, k.restore, rfl⟩

/-- A headland request (R139, R140). -/
theorem State.headlandNews_acts (h : Acts s0 s) (r : HeadlandRequest) : Acts s0 (s.headlandNews r) := by
  unfold State.headlandNews
  split
  · exact h
  · split
    · rename_i k
      refine State.announceAll_acts (State.headlandRaise_acts h ?_) _
      simp only [State.acceptsOut, Bool.and_eq_true, beq_iff_eq] at k
      exact k.1.1
    · exact h
  · split
    · exact State.announceAll_acts (State.headlandLower_acts h _) _
    · exact h

/-- The Hitch Controller's part of an accepted frame (R129). -/
@[simp] theorem State.hitchNews_acts (h : Acts s0 s) (n : OperatorNews) : Acts s0 (s.hitchNews n) := by
  unfold State.hitchNews
  refine State.buttonPress_acts (State.headlandNews_acts ?_ _) _
  exact State.onlyIf_acts (State.onlyIf_acts h _ State.dialChanged_acts) _ State.transportChanged_acts

end Sys2Proof.Machine
end

