-- ==== Sys2Proof/Laws/ModeReacts.lean ====
section
/-! SUPPORT. What a change of the operating state, a Motion Record update and the events of one command can
do at most: `Reacts s0 s` is `Acts` with the operating state, the entry counter and the run timer besides. -/

namespace Sys2Proof.Machine

/-- What the events of a command leave alone, and that they keep the invariant. -/
structure Reacts (s0 s : State) : Prop where
  pending : s.pending = s0.pending
  now : s.now = s0.now
  resetting : s.resetting = s0.resetting
  rstn : s.rstn = s0.rstn
  tables : s.tables = s0.tables
  intake : s.intake = s0.intake
  draft : s.draft = s0.draft
  vLink : s.vLink = s0.vLink
  emission : s.emission = s0.emission
  supervisor : s.supervisor = s0.supervisor
  mgmt : s.mgmt = s0.mgmt
  mail : s.mail = { s0.mail with shiftRecord := s.mail.shiftRecord }
  tLink : s.tLink = { s0.tLink with offer := s.tLink.offer }
  mode : s.mode = { s0.mode with op := s.mode.op, stops := s.mode.stops, runTimer := s.mode.runTimer }
  faults : s0.faults.Keeps s.faults
  ok : s0.Ok → s.Ok

variable {s0 s t : State}

theorem Acts.reacts (h : Acts s0 s) : Reacts s0 s :=
  { h with mode := by rw [h.mode] }

theorem Reacts.refl (s : State) : Reacts s s := (Acts.refl s).reacts

theorem Reacts.trans {a b c : State} (h : Reacts a b) (k : Reacts b c) : Reacts a c where
  pending := k.pending.trans h.pending
  now := k.now.trans h.now
  resetting := k.resetting.trans h.resetting
  rstn := k.rstn.trans h.rstn
  tables := k.tables.trans h.tables
  intake := k.intake.trans h.intake
  draft := k.draft.trans h.draft
  vLink := k.vLink.trans h.vLink
  emission := k.emission.trans h.emission
  supervisor := k.supervisor.trans h.supervisor
  mgmt := k.mgmt.trans h.mgmt
  mail := by rw [k.mail, h.mail]
  tLink := by rw [k.tLink, h.tLink]
  faults := h.faults.trans k.faults
  mode := by rw [k.mode, h.mode]
  ok := k.ok ∘ h.ok

/-- A part that is taken only at a condition. -/
theorem State.onlyIf_reacts (s : State) (c : Bool) {f : State → State} (hf : ∀ s, Reacts s (f s)) :
    Reacts s (s.onlyIf c f) := by
  unfold State.onlyIf
  split
  · exact hf s
  · exact .refl s

/-- A reaction after announcements. -/
theorem Reacts.acts (h : Reacts s0 s) (k : Acts s t) : Reacts s0 t := h.trans k.reacts

/-! ### Changes of the operating state (R167 to R172) -/

/-- The new operating state with the hitch's part of the change (R122, R167). -/
theorem State.enters_reacts (s : State) (op : OpState) (t : Timer) (ht : t ≠ none → op = .run) :
    Reacts s (({ s with mode := { s.mode with op := op, runTimer := t } } : State).hitchEnters s.mode.op op) := by
  have mode : ∀ _ : s.Ok, ({ s.mode with op := op, runTimer := t } : Mode).Ok := fun k => ⟨k.mode.stops, ht⟩
  unfold State.hitchEnters
  split
  · rename_i hop
    have m := State.hitchRun_moves { s with mode := { s.mode with op := op, runTimer := t } }
    rw [m.only]
    refine ⟨rfl, rfl, rfl, rfl, rfl, rfl, rfl, rfl, rfl, rfl, rfl, rfl, rfl, rfl, .start, fun k => ?_⟩
    have d := m.sound ⟨k.hitch.correcting, k.hitch.restore⟩
    exact { k with
      mode := mode k, memory := fun _ => hop
      hitch := ⟨d.correcting, d.restore, by rw [m.override, m.memory]; exact k.hitch.override⟩ }
  · split
    · refine ⟨rfl, rfl, rfl, rfl, rfl, rfl, rfl, rfl, rfl, rfl, rfl, rfl, rfl, rfl, .start, fun k => ?_⟩
      have d := (s.setHitch_moves .hold).sound k.hitch.toSound
      exact { k with mode := mode k, memory := fun n => absurd rfl n, hitch := ⟨d.correcting, d.restore, rfl⟩ }
    · rename_i hold
      refine ⟨rfl, rfl, rfl, rfl, rfl, rfl, rfl, rfl, rfl, rfl, rfl, rfl, rfl, rfl, .start, fun k => ?_⟩
      exact { k with mode := mode k, memory := fun n => absurd (k.memory n) hold }

theorem State.gearEnters_acts (h : Acts s0 s) (op : OpState) : Acts s0 (s.gearEnters op) := by
  unfold State.gearEnters
  split <;> simp [h]

theorem State.setOp_reacts (s : State) (op : OpState) : Reacts s (s.setOp op) := by
  have ht : (if op = .run then s.after Config.runMs else none) ≠ none → op = .run := by split <;> simp_all
  unfold State.setOp
  exact (s.enters_reacts op _ ht).acts (State.announceAll_acts (State.trailerEvaluate_acts (.refl _)) _)

theorem State.enterSafeStop_reacts (s : State) : Reacts s s.enterSafeStop := by
  have a : Reacts s { s with mode := { s.mode with stops := min 4 (s.mode.stops + 1) } } :=
    ⟨rfl, rfl, rfl, rfl, rfl, rfl, rfl, rfl, rfl, rfl, rfl, rfl, rfl, rfl, .start,
      fun k => { k with mode := ⟨by simp only; omega, k.mode.runTimer⟩ }⟩
  unfold State.enterSafeStop
  simp only
  split
  · exact (a.trans (State.setOp_reacts _ _)).acts (State.raise_acts (.refl _) _ _)
  · exact a.trans (State.setOp_reacts _ _)

theorem State.exitTest_reacts (s : State) : Reacts s s.exitTest := by
  unfold State.exitTest
  split
  · exact s.setOp_reacts _
  · exact .refl s

theorem State.causeEval_reacts (s : State) : Reacts s s.causeEval := by
  unfold State.causeEval
  split
  · split
    · exact s.enterSafeStop_reacts
    · split
      · exact s.setOp_reacts _
      · exact .refl s
  · split
    · exact s.enterSafeStop_reacts
    · split
      · exact .refl s
      · exact s.setOp_reacts _
  · exact s.exitTest_reacts
  all_goals exact .refl s

/-! ### Motion Record updates (R28, R35) -/

theorem State.motionUpdate_acts (h : Acts s0 s) (n : SlotNews) : Acts s0 (s.motionUpdate n) := by
  unfold State.motionUpdate
  refine State.onlyIf_acts ?_ _ State.evalCoupled_acts
  refine State.onlyIf_acts ?_ _ State.evalStandstill_acts
  exact State.onlyIf_acts h _ fun k => State.recompute_acts k _

theorem State.announceMotion_acts (h : Acts s0 s) (n : MotionNews) : Acts s0 (s.announceMotion n) :=
  State.announceAll_acts (State.trailerEvaluate_acts (State.facBrakeNews_acts h n)) _

theorem State.motionChanged_acts (h : Acts s0 s) (b : MotionRecord) (r : Bool) : Acts s0 (s.motionChanged b r) :=
  State.onlyIf_acts h _ fun k => State.announceMotion_acts k _

theorem State.motionTakes_acts (h : Acts s0 s) (n : SlotNews) : Acts s0 (s.motionTakes n) :=
  State.motionChanged_acts (State.motionUpdate_acts h n) _ _

theorem State.refreshMotion_acts (h : Acts s0 s) : Acts s0 s.refreshMotion :=
  State.motionChanged_acts (State.evalStandstill_acts (State.recompute_acts h _)) _ _

/-! ### Announcements of slots (R8) -/

theorem State.announceSlots_acts (h : Acts s0 s) (n : SlotNews) : Acts s0 (s.announceSlots n) := by
  unfold State.announceSlots
  apply State.announceAll_acts
  refine State.onlyIf_acts ?_ _ State.lineCheckEval_acts
  refine State.onlyIf_acts ?_ _ State.trailerEvaluate_acts
  refine State.onlyIf_acts ?_ _ fun k => State.hitchPosNews_acts k _
  exact State.onlyIf_acts h _ State.facCheckEval_acts

/-! ### Taking what a command has brought (logs 5 and 7) -/

/-- An event is a reaction where neither a cause evaluation nor the test for leaving SAFE_STOP has an effect. -/
theorem State.takeNotice_acts (h : Acts s0 s) (n : Notice) (causes : n = .causes → s.causeEval = s)
    (exits : n = .exit → s.exitTest = s) : Acts s0 (s.takeNotice n) := by
  cases n with
  | motion n => exact State.motionTakes_acts h n
  | refresh => exact State.refreshMotion_acts h
  | gear n => exact State.gearDecide_acts (State.onlyIf_acts h _ State.gearBrakeStart_acts) _
  | brake => exact State.arbiterBrakeStart_acts h
  | supply => exact State.decideFill_acts h
  | axle => exact State.facEvaluate_acts h
  | entry op => exact State.gearEnters_acts h op
  | causes => show Acts s0 s.causeEval; rwa [causes rfl]
  | exit => show Acts s0 s.exitTest; rwa [exits rfl]
  | operator n => exact State.gearNews_acts h n
  | hitch n => exact State.hitchNews_acts h n
  | headlandOut => exact State.headlandOut_acts h
  | headlandIn g d => exact State.headlandIn_acts h g d

theorem State.takeNotice_reacts (s : State) (n : Notice) : Reacts s (s.takeNotice n) := by
  by_cases c : n = .causes
  · exact c ▸ s.causeEval_reacts
  · by_cases e : n = .exit
    · exact e ▸ s.exitTest_reacts
    · exact (State.takeNotice_acts (.refl s) n (absurd · c) (absurd · e)).reacts

/-- Taking what has been announced. -/
theorem State.settled_reacts (s : State) : Reacts s s.settled :=
  State.settled_keeps (fun _ n h => h.acts ((Acts.refl _).withFree n)) (fun _ l h => h.acts ((Acts.refl _).withNotices l))
    (fun n t h => h.trans (t.takeNotice_reacts n)) (.refl s)

/-! ### The states that answer to no cause: UNLOADED, SETUP and LATCHED -/

/-- An operating state that neither a cause nor a standstill changes (R170, R171). -/
def OpState.still : OpState → Bool
  | .unloaded => true
  | .setup => true
  | .latched => true
  | .run => false
  | .degraded => false
  | .safeStop => false

theorem State.exitTest_still (s : State) (h : s.mode.op.still = true) : s.exitTest = s := by
  unfold State.exitTest
  split
  · rename_i hc
    rw [hc.1] at h
    simp [OpState.still] at h
  · rfl

theorem State.causeEval_still (s : State) (h : s.mode.op.still = true) : s.causeEval = s := by
  unfold State.causeEval
  split <;> simp_all [OpState.still]

/-- There all events together are a reaction. -/
theorem State.settled_still (h : Acts s0 s) (k : s0.mode.op.still = true) : Acts s0 s.settled :=
  State.settled_keeps (fun _ n h => h.withFree n) (fun _ l h => h.withNotices l) (fun n t h => by
    have k : t.mode.op.still = true := by rw [h.mode]; exact k
    exact State.takeNotice_acts h n (fun _ => t.causeEval_still k) fun _ => t.exitTest_still k) h

end Sys2Proof.Machine
end

