-- ==== Sys2Proof/Laws/Leads.lean ====
section
/-! SUPPORT. What the operations of links, slots, tables and management requests can do at most: `Leads s0 s` says
that they leave the queue of commands as it is and keep the invariant. -/

namespace Sys2Proof.Machine

/-- The queue of commands stays, and the invariant is kept. -/
structure Leads (s0 s : State) : Prop where
  pending : s.pending = s0.pending
  ok : s0.Ok → s.Ok

variable {s0 s t : State}

theorem Leads.refl (s : State) : Leads s s := ⟨rfl, id⟩

theorem Leads.trans {a b c : State} (h : Leads a b) (k : Leads b c) : Leads a c :=
  ⟨k.pending.trans h.pending, k.ok ∘ h.ok⟩

theorem Reacts.leads (h : Reacts s0 s) : Leads s0 s := ⟨h.pending, h.ok⟩

theorem Leads.reacts (h : Leads s0 s) (k : Reacts s t) : Leads s0 t := h.trans k.leads

theorem Leads.acts (h : Leads s0 s) (k : Acts s t) : Leads s0 t := h.trans k.reacts.leads

/-! ### Updates of single blocks -/

theorem Leads.withTables (h : Leads s0 s) {x : Tables} (hx : s.tables.Sized → x.Sized) :
    Leads s0 { s with tables := x } := h.trans ⟨rfl, fun k => { k with tables := hx k.tables }⟩

theorem Leads.withIntake (h : Leads s0 s) {x : Intake} (hx : s.intake.record.Ok → x.record.Ok) :
    Leads s0 { s with intake := x } := h.trans ⟨rfl, fun k => { k with record := hx k.record }⟩

theorem Leads.withDraft (h : Leads s0 s) {x : Draft} (hx : s.draft.Ok → x.Ok) :
    Leads s0 { s with draft := x } := h.trans ⟨rfl, fun k => { k with draft := hx k.draft }⟩

theorem Leads.withMode (h : Leads s0 s) {x : Mode} (hx : s.mode.Ok → x.Ok) (hop : x.op = s.mode.op) :
    Leads s0 { s with mode := x } :=
  h.trans ⟨rfl, fun k => { k with mode := hx k.mode, memory := fun n => hop.trans (k.memory n) }⟩

theorem Leads.withSuper (h : Leads s0 s) {x : Supervisor} (hx : s.supervisor.Ok → x.Ok) :
    Leads s0 { s with supervisor := x } := h.trans ⟨rfl, fun k => { k with supervisor := hx k.supervisor }⟩

@[simp] theorem Leads.withMail (h : Leads s0 s) (x : Mailboxes) : Leads s0 { s with mail := x } :=
  h.trans ⟨rfl, fun k => { k with }⟩

@[simp] theorem Leads.withEmission (h : Leads s0 s) (x : Timer) : Leads s0 { s with emission := x } :=
  h.trans ⟨rfl, fun k => { k with }⟩

@[simp] theorem Leads.withMgmt (h : Leads s0 s) (x : Management) : Leads s0 { s with mgmt := x } :=
  h.trans ⟨rfl, fun k => { k with }⟩

theorem Leads.withFaults (h : Leads s0 s) {x : Faults} (hx : s.faults.Ok → x.Ok) : Leads s0 { s with faults := x } :=
  h.trans ⟨rfl, fun k => { k with faults := hx k.faults }⟩

@[simp] theorem Leads.setHitchTimer (h : Leads s0 s) (x : Timer) :
    Leads s0 { s with hitch := { s.hitch with timer := x } } :=
  h.trans ⟨rfl, fun k => { k with hitch := ⟨k.hitch.correcting, k.hitch.restore, k.hitch.override⟩ }⟩

theorem State.Ok.link (k : s.Ok) (l : Link) : (s.link l).Ok := by
  cases l
  · exact k.tLink
  · exact k.vLink

theorem State.setLink_leads (h : Leads s0 s) (l : Link) {c : LinkCtl} (hc : s.Ok → c.Ok) : Leads s0 (s.setLink l c) := by
  cases l
  · exact h.trans ⟨rfl, fun k => { k with tLink := hc k }⟩
  · exact h.trans ⟨rfl, fun k => { k with vLink := hc k }⟩

theorem Draft.count_ok {d : Draft} (k : d.Ok) (n : Nat) : (d.count n).Ok := ⟨k.chRef, k.chL, k.chR⟩

@[simp] theorem State.atTime_leads (h : Leads s0 s) (t : Time) : Leads s0 (s.atTime t) :=
  h.trans ⟨rfl, fun k => { k with draft := Draft.count_ok k.draft _ }⟩

@[simp] theorem State.expire_leads (h : Leads s0 s) (t : Timer) : Leads s0 (s.expire t) := State.atTime_leads h _

theorem State.writeMail_leads (h : Leads s0 s) (id : MailboxId) (data : List Byte) : Leads s0 (s.writeMail id data) := by
  unfold State.writeMail
  exact Leads.withMail (State.setLink_leads h _ fun k => (k.link _).ofOffer _) _

@[simp] theorem State.reply_leads (h : Leads s0 s) (c : Nat) (r : Result) (d : List Byte) : Leads s0 (s.reply c r d) :=
  State.writeMail_leads h _ _

@[simp] theorem State.raise_leads (h : Leads s0 s) (k : FaultKind) (i : Nat) : Leads s0 (s.raise k i) :=
  h.acts (State.raise_acts (.refl s) k i)

@[simp] theorem State.gone_leads (h : Leads s0 s) (k : FaultKind) (i : Nat) : Leads s0 (s.gone k i) :=
  h.withFaults fun f => Faults.cleared_ok f k i

@[simp] theorem State.announce_leads (h : Leads s0 s) (n : Notice) : Leads s0 (s.announce n) :=
  h.acts (State.announce_acts (.refl s) n)

@[simp] theorem State.settled_leads (h : Leads s0 s) : Leads s0 s.settled := h.reacts s.settled_reacts

@[simp] theorem State.setOp_leads (h : Leads s0 s) (op : OpState) : Leads s0 (s.setOp op) := h.reacts (s.setOp_reacts op)

theorem State.unlessReset_leads (s : State) {f : State → State} (hf : Leads s (f s)) : Leads s (s.unlessReset f) := by
  unfold State.unlessReset
  split
  · exact .refl s
  · exact hf

theorem State.onlyIf_leads (h : Leads s0 s) (c : Bool) {f : State → State} (hf : Leads s0 s → Leads s0 (f s)) :
    Leads s0 (s.onlyIf c f) := by
  unfold State.onlyIf; split
  · exact hf h
  · exact h

/-! ### Links (chapter 10) -/

theorem LinkCtl.derived_ok {c : LinkCtl} (tx : c.txCount ≤ 255) (rx : c.rxCount ≤ 255) (q : c.queue.length ≤ queueSize) :
    c.derived.Ok := by
  refine ⟨tx, rx, ?_, q⟩
  unfold LinkCtl.derived
  simp only
  split
  · exact fun h => absurd rfl h
  · exact fun _ => rfl

theorem LinkCtl.txGood_ok {c : LinkCtl} (k : c.Ok) : c.txGood.Ok := by
  have := k.tx
  exact LinkCtl.derived_ok (by simp only; omega) k.rx k.queue

theorem LinkCtl.rxGood_ok {c : LinkCtl} (k : c.Ok) : c.rxGood.Ok := by
  have := k.rx
  exact LinkCtl.derived_ok k.tx (by simp only; omega) k.queue

theorem LinkCtl.rxBad_ok {c : LinkCtl} (k : c.Ok) : c.rxBad.Ok :=
  LinkCtl.derived_ok k.tx (by simp only; omega) k.queue

theorem LinkCtl.txBad_ok {c : LinkCtl} (k : c.Ok) : c.txBad.Ok := by
  unfold LinkCtl.txBad
  split
  · exact ⟨by simp, k.rx, fun h => absurd rfl h, k.queue⟩
  · exact LinkCtl.derived_ok (by simp only; omega) k.rx k.queue

theorem State.busOffNews_leads (h : Leads s0 s) (a b : ErrorState) : Leads s0 (s.busOffNews a b) := by
  unfold State.busOffNews
  split
  · exact h.withMode (fun k => ⟨k.stops, k.runTimer⟩) rfl
  · split
    · exact h.withMode (fun k => ⟨k.stops, k.runTimer⟩) rfl
    · exact h

theorem State.changeLink_leads (h : Leads s0 s) (l : Link) {c : LinkCtl} (hc : s.Ok → c.Ok) :
    Leads s0 (s.changeLink l c) := by
  have a := State.setLink_leads h l hc
  unfold State.changeLink
  cases l
  · exact a
  · have b := State.busOffNews_leads a (s.link .v).error c.error
    simp only
    split
    · exact State.announce_leads b _
    · exact b

@[simp] theorem State.countFrame_leads (h : Leads s0 s) (l : Link) : Leads s0 (s.countFrame l) := by
  have a : Leads s0 (s.changeLink l { (s.link l).rxGood with silence := .ok, silenceStart := some s.now }) :=
    State.changeLink_leads h l fun k => by
      have := LinkCtl.rxGood_ok (k.link l)
      exact ⟨this.tx, this.rx, this.error, this.queue⟩
  exact State.gone_leads (State.gone_leads a _ _) _ _

@[simp] theorem State.linkSuspect_leads (h : Leads s0 s) (l : Link) : Leads s0 (s.linkSuspect l) := by
  unfold State.linkSuspect
  simp only
  split
  · refine State.raise_leads (State.changeLink_leads (State.expire_leads h _) l fun k => ?_) _ _
    have : ((s.expire ((s.link l).silenceAt Config.suspectMs)).link l).Ok := k.link l
    cases l <;> exact ⟨this.tx, this.rx, this.error, this.queue⟩
  · exact h

@[simp] theorem State.linkFailed_leads (h : Leads s0 s) (l : Link) : Leads s0 (s.linkFailed l) := by
  have a := State.linkSuspect_leads h l
  unfold State.linkFailed
  simp only
  generalize s.linkSuspect l = t at a ⊢
  split
  · refine State.raise_leads (State.changeLink_leads (State.expire_leads a _) l fun k => ?_) _ _
    have : ((t.expire ((t.link l).silenceAt Config.failedMs)).link l).Ok := k.link l
    cases l <;> exact ⟨this.tx, this.rx, this.error, this.queue⟩
  · exact a

@[simp] theorem State.enqueue_leads (h : Leads s0 s) (l : Link) (f : Frame) : Leads s0 (s.enqueue l f) := by
  unfold State.enqueue
  simp only
  split
  · rename_i hq
    refine State.setLink_leads h l fun k => ?_
    have := k.link l
    exact ⟨this.tx, this.rx, this.error, by simp; omega⟩
  · refine State.raise_leads (State.setLink_leads h l fun k => ?_) _ _
    have := k.link l
    exact ⟨this.tx, this.rx, this.error, this.queue⟩

@[simp] theorem State.dropExpired_leads (h : Leads s0 s) (l : Link) : Leads s0 (s.dropExpired l) := by
  unfold State.dropExpired
  simp only
  split
  · refine State.gone_leads (State.setLink_leads (State.expire_leads h _) l fun k => ?_) _ _
    have : ((s.expire (s.link l).dropTimer).link l).Ok := k.link l
    cases l <;> exact ⟨this.tx, this.rx, this.error, this.queue⟩
  · exact h

@[simp] theorem State.makeOffer_leads (h : Leads s0 s) (l : Link) : Leads s0 (s.makeOffer l) := by
  unfold State.makeOffer
  simp only
  split
  · split
    · exact h
    · exact State.setLink_leads h l fun k => (k.link l).ofOffer _
  · exact h

@[simp] theorem State.sent_leads (h : Leads s0 s) (l : Link) (o : Offer) : Leads s0 (s.sent l o) := by
  unfold State.sent
  split
  · exact h.withMail _
  · refine State.setLink_leads h l fun k => ?_
    have := k.link l
    have q := this.queue
    exact ⟨this.tx, this.rx, this.error, by simp; omega⟩

@[simp] theorem State.offerSent_leads (h : Leads s0 s) (l : Link) (o : Offer) : Leads s0 (s.offerSent l o) :=
  State.sent_leads (State.changeLink_leads h l fun k => (LinkCtl.txGood_ok (k.link l)).ofOffer _) l o

@[simp] theorem State.offerFailed_leads (h : Leads s0 s) (l : Link) : Leads s0 (s.offerFailed l) :=
  State.changeLink_leads h l fun k => (LinkCtl.txBad_ok (k.link l)).ofOffer _

@[simp] theorem State.recover_leads (h : Leads s0 s) (l : Link) : Leads s0 (s.recover l) := by
  unfold State.recover
  simp only
  split
  · exact State.changeLink_leads h l fun k => ⟨by simp, by simp, fun _ => rfl, (k.link l).queue⟩
  · exact h

/-! ### Slots and tables in use (chapters 1 and 12) -/

@[simp] theorem State.setSlot_leads (h : Leads s0 s) (i : Fin 16) (x : Slot) : Leads s0 (s.setSlot i x) :=
  h.withIntake id

@[simp] theorem State.updateSlot_leads (h : Leads s0 s) (i : Fin 16) (v : Int) : Leads s0 (s.updateSlot i v) := by
  unfold State.updateSlot
  simp only
  split <;> simp [h]

@[simp] theorem State.announceSlots_leads (h : Leads s0 s) (n : SlotNews) : Leads s0 (s.announceSlots n) :=
  h.acts (State.announceSlots_acts (.refl s) n)

theorem State.updateSlots_leads (h : Leads s0 s) (us : List (Fin 16 × Int)) :
    Leads s0 (us.foldl (fun s u => s.updateSlot u.1 u.2) s) := by
  induction us generalizing s with
  | nil => exact h
  | cons u us ih => exact ih (State.updateSlot_leads h _ _)

@[simp] theorem State.applyUpdates_leads (h : Leads s0 s) (us : List (Fin 16 × Int)) : Leads s0 (s.applyUpdates us) := by
  unfold State.applyUpdates
  simp only
  split
  · exact h
  · exact State.announceSlots_leads (State.updateSlots_leads h _) _

@[simp] theorem State.loseSlot_leads (h : Leads s0 s) (i : Fin 16) : Leads s0 (s.loseSlot i) := by
  unfold State.loseSlot; simp [h]

@[simp] theorem State.slotTimedOut_leads (h : Leads s0 s) (i : Fin 16) : Leads s0 (s.slotTimedOut i) := by
  unfold State.slotTimedOut
  simp only
  split <;> simp (maxDischargeDepth := 9) [h]

@[simp] theorem State.slotHoldPassed_leads (h : Leads s0 s) (i : Fin 16) : Leads s0 (s.slotHoldPassed i) := by
  unfold State.slotHoldPassed; simp (maxDischargeDepth := 9) [h]

theorem State.goneAll_leads (h : Leads s0 s) (k : FaultKind) (is : List (Fin 16)) :
    Leads s0 (is.foldl (fun s i => s.gone k i.val) s) := by
  induction is generalizing s with
  | nil => exact h
  | cons i is ih => exact ih (State.gone_leads h _ _)

@[simp] theorem State.mapChanged_leads (h : Leads s0 s) (b : List TWord) : Leads s0 (s.mapChanged b) := by
  unfold State.mapChanged
  apply State.announceSlots_leads
  exact (State.goneAll_leads h _ _).withIntake id

theorem State.trailerTableChanged_leads (h : Leads s0 s) : Leads s0 s.trailerTableChanged :=
  h.acts (State.motionChanged_acts (State.evalCoupled_acts (State.trailerEvaluate_acts (.withTrailer (.refl s) _))) _ _)

@[simp] theorem State.tableChanged_leads (h : Leads s0 s) (id : TableId) (b : List TWord) :
    Leads s0 (s.tableChanged id b) := by
  unfold State.tableChanged
  split
  · simp [h]
  · unfold State.substitutesChanged; simp [h]
  · exact h
  · split
    · exact h
    · exact h.acts (State.gearTableChanged_acts (.refl s))
  · exact h.acts (State.facCheckEval_acts (State.decideFill_acts (.refl s)))
  · exact h
  · exact h.acts (State.facEvaluate_acts (.refl s))
  · exact h
  · exact State.trailerTableChanged_leads h
  · exact h

theorem Tables.Sized.put {ts : Tables} (k : ts.Sized) {id : TableId} {t : Table} (h : t.loaded.length = id.size) :
    (ts.put id t).Sized := by
  intro b
  rw [Tables.get_put]
  split
  · rename_i e; rw [← e]; exact h
  · exact k b

theorem State.setTable_leads (h : Leads s0 s) {id : TableId} {t : Table} (ht : s.Ok → t.loaded.length = id.size) :
    Leads s0 (s.setTable id t) :=
  h.trans ⟨rfl, fun k => { k with tables := k.tables.put (ht k) }⟩

theorem State.loadTable_leads (h : Leads s0 s) {id : TableId} {ws : List TWord} (hw : s.Ok → ws.length = id.size) :
    Leads s0 (s.loadTable id ws) := by
  have a : Leads s0 (s.setTable id ⟨.uncommitted, ws⟩) := State.setTable_leads h hw
  unfold State.loadTable
  simp only
  split
  · exact State.tableChanged_leads a _ _
  · exact a

@[simp] theorem State.commitTable_leads (h : Leads s0 s) (id : TableId) : Leads s0 (s.commitTable id) := by
  have a : Leads s0 (s.setTable id { s.table id with state := .committed }) :=
    State.setTable_leads h fun k => k.tables id
  exact State.tableChanged_leads a id (s.inUse id)

/-! ### Management requests (chapter 12) -/

@[simp] theorem State.advance_leads (h : Leads s0 s) (c : Cursor) : Leads s0 (s.advance c) := h.withMgmt _

theorem State.writeWord_leads (h : Leads s0 s) (c : Nat) (d : List Byte) : Leads s0 (s.writeWord c d) := by
  unfold State.writeWord
  split
  · simp [h]
  · split
    · simp [h]
    · split
      · simp [h]
      · split
        · simp [h]
        · simp only
          exact State.reply_leads (State.advance_leads (State.loadTable_leads h fun k => by
            rw [List.length_set]; exact k.tables _) _) _ _ _

theorem State.readWord_leads (h : Leads s0 s) : Leads s0 s.readWord := by
  unfold State.readWord
  split
  · simp [h]
  · split <;> simp [h]

theorem State.requestCommit_leads (h : Leads s0 s) (i c : Nat) : Leads s0 (s.requestCommit i c) := by
  unfold State.requestCommit
  split
  · simp [h]
  · split
    · simp [h]
    · simp only
      split
      · simp [h]
      · split <;> simp [h]

theorem Faults.without_ok {f : Faults} (k : f.Ok) (p : FaultEntry → Bool) : (f.without p).Ok where
  size := Nat.le_trans (List.length_filter_le _ _) k.size
  distinct := k.distinct.sublist List.filter_sublist
  counts := fun e he => k.counts e ((List.mem_filter.mp he).1)
  position := k.position

theorem Faults.acked_ok {f : Faults} (k : f.Ok) (one : Bool) (a b : Nat) : (f.acked one a b).1.Ok := by
  unfold Faults.acked
  split
  · split
    · exact Faults.without_ok k _
    · split
      · exact Faults.without_ok k _
      · exact k
  · exact Faults.without_ok k _

theorem State.requestAck_leads (h : Leads s0 s) (a b c : Nat) : Leads s0 (s.requestAck a b c) := by
  unfold State.requestAck
  split
  · simp [h]
  · exact State.reply_leads (h.withFaults fun k => Faults.acked_ok k _ _ _) _ _ _

theorem State.requestCapture_leads (h : Leads s0 s) (a : Nat) : Leads s0 (s.requestCapture a) := by
  unfold State.requestCapture
  split
  · simp [h]
  · split
    · simp [h]
    · exact State.reply_leads (h.withMgmt _) _ _ _

theorem State.captureDone_leads (h : Leads s0 s) (c : Capture) : Leads s0 (s.captureDone c) := by
  unfold State.captureDone
  simp only
  exact State.reply_leads (State.loadTable_leads (h.withMgmt _) fun k => by
    rw [List.length_set]; exact k.tables .hitch) _ _ _

@[simp] theorem State.captureCycle_leads (h : Leads s0 s) (a b : Option Nat) : Leads s0 (s.captureCycle a b) := by
  unfold State.captureCycle
  split
  · exact h
  · simp only
    split
    · exact State.captureDone_leads h _
    · split
      · exact State.reply_leads (h.withMgmt _) _ _ _
      · exact h.withMgmt _

theorem State.requestSetup_leads (h : Leads s0 s) : Leads s0 s.requestSetup := by
  unfold State.requestSetup
  simp only
  split <;> simp [h]

theorem State.requestRun_leads (h : Leads s0 s) : Leads s0 s.requestRun := by
  unfold State.requestRun
  simp only
  split <;> simp [h]

theorem State.selectCursor_leads (h : Leads s0 s) (i w : Nat) : Leads s0 (s.selectCursor i w) := by
  unfold State.selectCursor
  split
  · simp [h]
  · split
    · simp [h]
    · exact State.reply_leads (h.withMgmt _) _ _ _

theorem State.requestRestart_leads (h : Leads s0 s) : Leads s0 s.requestRestart := by
  unfold State.requestRestart
  split
  · exact State.reply_leads (h.withMgmt _) _ _ _
  · simp [h]

theorem State.handleRequest_leads (h : Leads s0 s) (d : List Byte) : Leads s0 (s.handleRequest d) := by
  unfold State.handleRequest
  simp only
  split
  · exact State.reply_leads h _ _ _
  · exact State.requestSetup_leads h
  · exact State.requestRun_leads h
  · exact State.selectCursor_leads h _ _
  · exact State.writeWord_leads h _ _
  · exact State.readWord_leads h
  · exact State.requestCommit_leads h _ _
  · exact State.requestAck_leads h _ _ _
  · exact State.requestCapture_leads h _
  · exact State.requestRestart_leads h
  · exact h

@[simp] theorem State.takeRequest_leads (h : Leads s0 s) (d : List Byte) : Leads s0 (s.takeRequest d) := by
  unfold State.takeRequest
  split
  · simp [h]
  · split
    · simp [h]
    · split
      · simp [h]
      · split
        · exact h
        · exact State.handleRequest_leads h _

end Sys2Proof.Machine
end

