-- ==== Sys2Proof/Laws/StepLeads.lean ====
section
/-! SUPPORT. What the operations of the draft capture, the supervisor, the Frame Intake, the timers and the steps can
do at most. -/

namespace Sys2Proof.Machine

variable {s0 s t : State}

/-! ### Draft capture (chapter 7) -/

theorem ChannelHealth.after_ok (h : ChannelHealth) (v : Bool) : (h.after v).Ok := by
  constructor <;> (simp only [ChannelHealth.after]; split <;> omega)

theorem Draft.setChannel_ok {d : Draft} (k : d.Ok) (c : Channel) {h : ChannelHealth} (hh : h.Ok) :
    (d.setChannel c h).Ok := by
  cases c
  · exact ⟨hh, k.chL, k.chR⟩
  · exact ⟨k.chRef, hh, k.chR⟩
  · exact ⟨k.chRef, k.chL, hh⟩

/-- The same channels. -/
structure Draft.Same (a b : Draft) : Prop where
  chRef : b.chRef = a.chRef
  chL : b.chL = a.chL
  chR : b.chR = a.chR

theorem Leads.sameDraft (h : Leads s0 s) {f : Draft → Draft} (hf : ∀ d : Draft, d.Same (f d)) :
    Leads s0 (s.withDraft f) :=
  h.withDraft fun k => by
    have := hf s.draft
    exact ⟨this.chRef ▸ k.chRef, this.chL ▸ k.chL, this.chR ▸ k.chR⟩

@[simp] theorem State.channelResult_leads (h : Leads s0 s) (c : Channel) (v : Bool) : Leads s0 (s.channelResult c v) := by
  have a : Leads s0 (s.withDraft fun d => d.setChannel c ((s.draft.channel c).after v)) :=
    h.withDraft fun k => Draft.setChannel_ok k c (ChannelHealth.after_ok _ v)
  unfold State.channelResult
  simp only
  split
  · exact State.raise_leads a _ _
  · split
    · exact State.gone_leads a _ _
    · exact a

@[simp] theorem State.beginMeasurement_leads (h : Leads s0 s) (p : CapturePos) : Leads s0 (s.beginMeasurement p) :=
  h.sameDraft fun _ => ⟨rfl, rfl, rfl⟩

@[simp] theorem State.cycleEnd_leads (h : Leads s0 s) : Leads s0 s.cycleEnd := by
  unfold State.cycleEnd
  simp only
  apply State.beginMeasurement_leads
  apply State.captureCycle_leads
  exact h.sameDraft fun _ => ⟨rfl, rfl, rfl⟩

@[simp] theorem State.refEnded_leads (h : Leads s0 s) (e : Option Nat) : Leads s0 (s.refEnded e) := by
  have a : Leads s0 ((s.withDraft fun d => { d with eRef := e }).channelResult .ref e.isSome) := by
    apply State.channelResult_leads
    exact h.sameDraft fun _ => ⟨rfl, rfl, rfl⟩
  unfold State.refEnded
  simp only
  split
  · split
    · exact State.beginMeasurement_leads a _
    · apply State.beginMeasurement_leads
      exact a.sameDraft fun _ => ⟨rfl, rfl, rfl⟩
  · split
    · exact State.beginMeasurement_leads a _
    · apply State.cycleEnd_leads
      exact a.sameDraft fun _ => ⟨rfl, rfl, rfl⟩
  · exact a
  · exact a

@[simp] theorem State.sensorEnded_leads (h : Leads s0 s) (q : Option Nat) : Leads s0 (s.sensorEnded q) := by
  unfold State.sensorEnded
  split
  · apply State.beginMeasurement_leads
    apply State.channelResult_leads
    exact h.sameDraft fun _ => ⟨rfl, rfl, rfl⟩
  · apply State.cycleEnd_leads
    apply State.channelResult_leads
    exact h.sameDraft fun _ => ⟨rfl, rfl, rfl⟩
  · exact h
  · exact h

@[simp] theorem State.untilCount_leads (h : Leads s0 s) (n : Nat) : Leads s0 (s.untilCount n) := State.atTime_leads h _

@[simp] theorem State.measured_leads (h : Leads s0 s) (n : Nat) (es : List Nat) : Leads s0 (s.measured n es) := by
  unfold State.measured
  exact (State.untilCount_leads h n).sameDraft fun _ => ⟨rfl, rfl, rfl⟩

@[simp] theorem State.refMeasured_leads (h : Leads s0 s) (es : List Nat) : Leads s0 (s.refMeasured es) := by
  unfold State.refMeasured
  split <;> simp (maxDischargeDepth := 9) [h]

theorem State.gateEnded_leads (h : Leads s0 s) (es : List Nat) : Leads s0 (s.gateEnded es) := by
  unfold State.gateEnded
  split <;> simp [h]

theorem State.refOverranged_leads (h : Leads s0 s) : Leads s0 s.refOverranged := by
  unfold State.refOverranged
  split <;> simp [h]

theorem State.firstEdgeSeen_leads (h : Leads s0 s) : Leads s0 s.firstEdgeSeen := by
  unfold State.firstEdgeSeen
  split
  · exact h
  · exact h.sameDraft fun _ => ⟨rfl, rfl, rfl⟩

@[simp] theorem State.sensorMeasured_leads (h : Leads s0 s) (es : List Nat) : Leads s0 (s.sensorMeasured es) := by
  unfold State.sensorMeasured
  split <;> simp (maxDischargeDepth := 9) [h]

theorem State.sensorDone_leads (h : Leads s0 s) (es : List Nat) : Leads s0 (s.sensorDone es) := by
  unfold State.sensorDone
  split <;> simp [h]

theorem State.sensorStalled_leads (h : Leads s0 s) : Leads s0 s.sensorStalled := by
  unfold State.sensorStalled
  split <;> simp [h]

/-! ### Supervisor and Operator Request Record (chapters 1 and 11) -/

@[simp] theorem State.supervisorError_leads (h : Leads s0 s) : Leads s0 s.supervisorError := by
  have a : Leads s0 (s.withSupervisor fun v => { v with errors := min 255 (s.supervisor.errors + 1) }) :=
    h.withSuper fun k => ⟨by simp only; omega, k.goodRun⟩
  unfold State.supervisorError
  simp only
  split
  · exact a.withSuper fun k => ⟨k.errors, by simp⟩
  · split
    · apply State.announce_leads
      apply State.raise_leads
      exact a.withSuper fun k => ⟨k.errors, by simp⟩
    · exact a

theorem State.lateExpired_leads (h : Leads s0 s) : Leads s0 s.lateExpired := by
  unfold State.lateExpired
  simp only
  apply State.supervisorError_leads
  exact (State.expire_leads h _).withSuper fun k => ⟨k.errors, k.goodRun⟩

theorem State.supervisorAccepts_leads (h : Leads s0 s) : Leads s0 s.supervisorAccepts :=
  h.withSuper fun k => ⟨by have := k.errors; simp only; omega, by
    simp only
    split
    · omega
    · exact k.goodRun⟩

theorem State.recoveryTest_leads (h : Leads s0 s) : Leads s0 s.recoveryTest := by
  unfold State.recoveryTest
  split
  · apply State.announce_leads
    apply State.gone_leads
    exact h.withSuper fun k => ⟨by simp, by simp⟩
  · exact h

theorem OperatorRecord.after_ok (r : OperatorRecord) (d : List Byte) : (r.after d).Ok := by
  constructor <;> (simp only [OperatorRecord.after]; omega)

theorem State.acceptCommand_leads (h : Leads s0 s) (d : List Byte) : Leads s0 (s.acceptCommand d) := by
  unfold State.acceptCommand
  simp only
  refine Leads.acts ?_ (State.announceAll_acts (.refl _) _)
  apply State.recoveryTest_leads
  apply State.supervisorAccepts_leads
  exact h.withIntake fun _ => OperatorRecord.after_ok _ d

@[simp] theorem State.operatorFrame_leads (h : Leads s0 s) (d : List Byte) : Leads s0 (s.operatorFrame d) := by
  unfold State.operatorFrame
  split
  · simp [h]
  · split
    · simp [h]
    · exact State.acceptCommand_leads h d

/-! ### Frame Intake (chapter 1) -/

@[simp] theorem State.forward_leads (h : Leads s0 s) (l : Link) (e : MapEntry) (f : Frame) : Leads s0 (s.forward l e f) := by
  unfold State.forward
  split <;> simp [h]

@[simp] theorem State.takeFrame_leads (h : Leads s0 s) (l : Link) (b : Bool) (f : Frame) : Leads s0 (s.takeFrame l b f) := by
  unfold State.takeFrame
  split <;> simp [h]

/-- A received frame leaves the queue of commands and keeps the invariant. -/
theorem State.receive_leads (s : State) (t : Time) (l : Link) (b : Bool) (f : Frame) : Leads s (s.receive t l b f) := by
  unfold State.receive
  apply State.unlessReset_leads
  split
  · simp (maxDischargeDepth := 9) [Leads.refl]
  · exact .refl s

/-! ### Resets (R173, R188) -/

theorem LinkCtl.Ok.quiet {c : LinkCtl} (k : c.Ok) : c.quiet.Ok := ⟨k.tx, k.rx, k.error, k.queue⟩

/-- Stopping the age timers keeps the Fault List's invariant. -/
theorem Faults.Ok.stopped {f : Faults} (k : f.Ok) :
    ({ f with entries := f.entries.map fun e => { e with timer := none } } : Faults).Ok where
  size := by simpa using k.size
  distinct := k.distinct.map (f := fun e => { e with timer := none }) fun _ => ⟨rfl, rfl⟩
  counts := fun e he => by
    simp only [List.mem_map] at he
    obtain ⟨x, hx, rfl⟩ := he
    exact k.counts x hx
  position := k.position

theorem Gear.Ok.stopped {g : Gear} (k : g.Ok) (h : Timer) (d : Deferral) :
    ({ g with shuttle := g.shuttle.map (fun x => { x with timer := none }), holdOff := h, deferral := d } : Gear).Ok := by
  unfold Gear.Ok at *
  simpa using k

/-- What a reset leaves in the blocks while it stops their timers. -/
theorem State.quiet_fields (s : State) :
    s.quiet.pending = s.pending ∧ s.quiet.now = s.now ∧ s.quiet.free = s.free ∧ s.quiet.notices = s.notices ∧
    s.quiet.resetting = s.resetting ∧ s.quiet.rstn = s.rstn ∧ s.quiet.neut = s.neut ∧ s.quiet.tables = s.tables ∧
    s.quiet.intake.record = s.intake.record ∧ s.quiet.motion.record = s.motion.record ∧
    s.quiet.arbiter = s.arbiter ∧ s.quiet.draft = s.draft ∧ s.quiet.mail = s.mail ∧
    s.quiet.mode.op = s.mode.op ∧ s.quiet.mode.stops = s.mode.stops ∧ s.quiet.mode.cause = s.mode.cause := by
  simp only [State.quiet, and_self]

theorem State.quiet_leads (h : Leads s0 s) : Leads s0 s.quiet := by
  refine h.trans ⟨s.quiet_fields.1, fun k => ?_⟩
  unfold State.quiet
  exact {
    tables := k.tables
    record := k.record
    motion := k.motion
    draft := k.draft
    supervisor := ⟨k.supervisor.errors, k.supervisor.goodRun⟩
    memory := k.memory
    tLink := k.tLink.quiet
    vLink := k.vLink.quiet
    faults := k.faults.stopped
    mode := ⟨k.mode.stops, fun n => absurd rfl n⟩
    gear := k.gear.stopped _ _
    hitch := ⟨k.hitch.correcting, k.hitch.restore, k.hitch.override⟩
    fac := ⟨fun n => k.fac.check (n.elim (fun z => absurd rfl z) Or.inr), fun n => n.elim (fun z => absurd rfl z)
      fun z => absurd rfl z⟩
    fill := k.fill }

theorem State.beginReset_leads (h : Leads s0 s) (r : ResetKind) : Leads s0 (s.beginReset r) := by
  have a := State.quiet_leads h
  unfold State.beginReset
  simp only
  generalize s.quiet = t at a ⊢
  refine a.trans ⟨rfl, fun k => { k with mode := ⟨?_, k.mode.runTimer⟩ }⟩
  simp only
  split
  · omega
  · exact k.mode.stops

theorem State.pinReset_leads (h : Leads s0 s) : Leads s0 { s.beginReset .pin with rstn := false } := by
  have a := State.beginReset_leads h .pin
  generalize s.beginReset .pin = t at a ⊢
  exact a.trans ⟨rfl, fun k => { k with }⟩

theorem State.afterReset_pending (s : State) (r : ResetKind) : (s.afterReset r).pending = s.pending := rfl

theorem State.restartBegins_leads (h : Leads s0 s) : Leads s0 s.restartBegins := by
  unfold State.restartBegins
  split
  · exact State.beginReset_leads (State.expire_leads h _) _
  · exact h

/-! ### Links, timers and steps -/

theorem State.transmitted_leads (h : Leads s0 s) (l : Link) : Leads s0 (s.transmitted l) := by
  unfold State.transmitted
  split
  · exact h
  · have a := State.settled_leads (State.offerSent_leads h l ‹Offer›)
    simp only
    split
    · exact State.beginReset_leads a _
    · exact a

theorem State.standstillReached_leads (h : Leads s0 s) : Leads s0 s.standstillReached := by
  unfold State.standstillReached
  simp only
  refine Leads.acts ?_ (State.motionChanged_acts (.refl _) _ _)
  have a := State.expire_leads h s.motion.timer
  exact a.acts ((Acts.refl _).ofMotion fun k => ⟨k.slip, k.slipF, k.invalid⟩)

theorem State.shuttleDropped_leads (h : Leads s0 s) : Leads s0 s.shuttleDropped := by
  unfold State.shuttleDropped
  split
  · exact h
  · exact (State.expire_leads h _).acts ((Acts.refl _).ofGear fun _ => by simp [Gear.Ok])

theorem State.holdOffPassed_leads (h : Leads s0 s) : Leads s0 s.holdOffPassed :=
  (State.expire_leads h _).acts ((Acts.refl _).sameGear fun _ => ⟨rfl, rfl⟩)

theorem State.deferralPassed_leads (h : Leads s0 s) : Leads s0 s.deferralPassed := by
  unfold State.deferralPassed
  split
  · exact (State.expire_leads h _).acts ((Acts.refl _).sameGear fun _ => ⟨rfl, rfl⟩)
  · exact h
  · exact h

theorem State.pulseEnded_leads (h : Leads s0 s) : Leads s0 s.pulseEnded :=
  (State.expire_leads h _).acts ((Acts.refl _).ofFac
    (fun k => ⟨k.check, fun n => k.fill (n.elim Or.inl fun z => absurd rfl z)⟩) rfl)

/-- The release fill ends; a fill is timed in RELEASE_FILL alone (R104). -/
theorem State.fillEnded_leads (h : Leads s0 s) (hr : running s.fac.fillTimer = true) :
    Leads s0 (s.expire s.fac.fillTimer).facFilled := by
  refine (State.expire_leads h s.fac.fillTimer).trans ⟨?_, fun k => ?_⟩
  · unfold State.facFilled
    simp only
    rw [(State.decideFill_acts (State.facCheckEval_acts (.refl _))).pending]
    unfold State.setFac State.facCheckOk
    simp only
    split <;> simp
  · have e : s.fac.state = .releaseFill := k.fac.fill (Or.inl fun n => by
      have n : s.fac.fillTimer = none := n
      simp [n, running] at hr)
    exact (State.facFilled_acts (.refl (s.expire s.fac.fillTimer)) e).ok k

theorem State.dwellPassed_leads (h : Leads s0 s) : Leads s0 s.dwellPassed :=
  (State.expire_leads h _).acts (State.facEvaluate_acts ((Acts.refl _).ofFac (fun k => ⟨k.check, k.fill⟩) rfl))

theorem State.brakeHoldPassed_leads (h : Leads s0 s) : Leads s0 s.brakeHoldPassed :=
  (State.expire_leads h _).acts (State.facEvaluate_acts ((Acts.refl _).ofFac (fun k => ⟨k.check, k.fill⟩) rfl))

theorem State.checkFailed_leads (h : Leads s0 s) (hc : running s.fac.check = true) : Leads s0 s.checkFailed := by
  have n : s.fac.check ≠ none := fun e => by simp [e, running] at hc
  have a : Acts (s.expire s.fac.check)
      { s.expire s.fac.check with fac := { s.fac with check := none, noRelease := true } } :=
    (Acts.refl _).ofFac (fun k => ⟨fun _ => k.check (Or.inl n), k.fill⟩) rfl
  exact ((State.expire_leads h _).acts a).acts (State.raise_acts (.refl _) _ _)

theorem State.busOffPassed_leads (h : Leads s0 s) : Leads s0 s.busOffPassed := by
  unfold State.busOffPassed
  apply State.announce_leads
  exact (State.expire_leads h _).withMode (fun k => ⟨k.stops, k.runTimer⟩) rfl

theorem State.runPassed_leads (h : Leads s0 s) : Leads s0 s.runPassed :=
  (State.expire_leads h _).withMode (fun _ => ⟨by simp, fun n => absurd rfl n⟩) rfl

theorem State.ageEntry_leads (h : Leads s0 s) (k : FaultKind) (i : Nat) : Leads s0 (s.ageEntry k i) := by
  unfold State.ageEntry
  split
  · exact h
  · refine (State.expire_leads h _).withFaults fun f => ⟨by simpa using f.size, f.distinct.map ?_, ?_, f.position⟩
    · intro e; split <;> exact ⟨rfl, rfl⟩
    · intro e he
      simp only [List.mem_map] at he
      obtain ⟨x, hx, rfl⟩ := he
      have := f.counts x hx
      split
      · simp only [FaultEntry.older]; omega
      · exact this

/-! ### The clutch step (R59) -/

theorem adaptWords_length (d : Int) (cs : List Nat) (ws : List TWord) : (adaptWords d cs ws).length = ws.length := by
  unfold adaptWords
  induction cs generalizing ws with
  | nil => rfl
  | cons c cs ih => rw [List.foldl_cons, ih, withAdapt, List.length_set]

@[simp] theorem State.adapt_leads (h : Leads s0 s) (o : Order) (r : OrderResult) : Leads s0 (s.adapt o r) := by
  unfold State.adapt
  split
  · exact State.setTable_leads h fun k => by simp only [adaptWords_length]; exact k.tables .clutch
  · exact h

theorem State.goneDrives_acts (h : Acts s0 s) (ds : List Drive) :
    Acts s0 (ds.foldl (fun s d => s.gone .shiftSyncTimeout d.clutch) s) := by
  induction ds generalizing s with
  | nil => exact h
  | cons d ds ih => exact ih (State.gone_acts h rfl _)

theorem State.raiseSync_acts (h : Acts s0 s) (o : Order) : Acts s0 (s.raiseSync o) := by
  unfold State.raiseSync
  generalize o.oncoming = ds
  induction ds generalizing s with
  | nil => exact h
  | cons d ds ih => exact ih (State.raise_acts h _ _)

theorem State.syncGone_acts (h : Acts s0 s) (o : Order) (r : OrderResult) : Acts s0 (s.syncGone o r) := by
  unfold State.syncGone
  split
  · exact State.goneDrives_acts h _
  · exact h

theorem State.endAtStep_leads (h : Leads s0 s) (o : Order) (r : OrderResult) : Leads s0 (s.endAtStep o r) :=
  (State.adapt_leads h o r).acts (State.orderEnd_acts (State.syncGone_acts (.refl _) o r) _ _ _)

theorem State.phaseEnded_acts (h : Acts s0 s) (o : Order) (e : StepEnd) : Acts s0 (s.phaseEnded o e) := by
  unfold State.phaseEnded
  split
  · simp [h]
  · simp [h]
  · split
    · exact State.raiseSync_acts h o
    · exact h
  · simp [h]
  · exact h

theorem State.orderGoesOn_acts (h : Acts s0 s) (o : Order) (e : StepEnd) : Acts s0 (s.orderGoesOn o e) := by
  unfold State.orderGoesOn
  split
  · split
    · simp [h]
    · exact h
  · split
    · exact h
    · simp [h]
    · split <;> simp [h]

theorem State.writeClutchFrames_leads (h : Leads s0 s) (p : Nat) : Leads s0 (s.writeClutchFrames p) :=
  (State.writeMail_leads (State.writeMail_leads h _ _) _ _).acts (State.setNeut_acts (.refl _))

theorem State.runStep_leads (h : Leads s0 s) (o : Order) : Leads s0 (s.runStep o) := by
  have a : Leads s0 (((s.withOrder (s.stepOrder o).1).phaseEnded (s.stepOrder o).1 (s.stepOrder o).2).stepCommands) :=
    h.acts ((State.phaseEnded_acts (State.withOrder_acts (.refl s) _) _ _).withShift _)
  unfold State.runStep
  simp only
  apply State.writeClutchFrames_leads
  split
  · exact State.endAtStep_leads a _ _
  · exact a.acts (State.orderGoesOn_acts (.refl _) _ _)

theorem State.clutchStep_leads (h : Leads s0 s) : Leads s0 s.clutchStep := by
  have a := (State.expire_leads h s.shift.timer).acts ((Acts.refl _).withShift
    { (s.expire s.shift.timer).shift with
      timer := (s.expire s.shift.timer).nextPeriod (s.expire s.shift.timer).shift.timer Config.clutchStepMs })
  unfold State.clutchStep
  simp only
  split
  · exact State.writeClutchFrames_leads (a.acts ((Acts.refl _).withShift _)) 0
  · exact State.runStep_leads a _

/-! ### Control step, brake step, emission (R121, R151, R165) -/

theorem State.controlStep_leads (h : Leads s0 s) : Leads s0 s.controlStep := by
  unfold State.controlStep
  simp only
  exact (State.writeMail_leads (Leads.setHitchTimer (State.expire_leads h _) _) _ _).acts
    ((State.afterLaw_moves _ _).acts (.refl _))

theorem State.brakeStepTaken_leads (h : Leads s0 s) : Leads s0 s.brakeStepTaken := by
  have a := (State.expire_leads h s.trailer.timer).acts (State.holdIfLatched_acts (.refl _))
  unfold State.brakeStepTaken
  simp only
  exact (State.writeMail_leads (a.acts ((Acts.refl _).withTrailer _)) _ _).acts (State.lineCheckEval_acts (.refl _))

theorem State.tailEnded_leads (h : Leads s0 s) : Leads s0 s.tailEnded :=
  (State.expire_leads h _).acts (State.trailerEvaluate_acts ((Acts.refl _).withTrailer _))

theorem State.lineFailed_leads (h : Leads s0 s) : Leads s0 s.lineFailed :=
  (State.expire_leads h _).acts (State.raise_acts ((Acts.refl _).withTrailer _) _ _)

theorem Faults.nextPosition_lt (f : Faults) : f.nextPosition < maxEntries := by
  unfold Faults.nextPosition
  split
  · decide
  · exact Nat.mod_lt _ (by decide)

theorem State.emit_leads (h : Leads s0 s) : Leads s0 s.emit := by
  unfold State.emit
  simp only
  refine Leads.withFaults ?_ fun k => ⟨k.size, k.distinct, k.counts, Faults.nextPosition_lt _⟩
  exact State.writeMail_leads (State.writeMail_leads (State.writeMail_leads
    (Leads.withEmission (State.expire_leads h _) _) _ _) _ _) _ _

theorem State.tick_leads (h : Leads s0 s) : Leads s0 s.tick := by
  unfold State.tick
  split
  · exact h.trans ⟨rfl, fun k => { k with }⟩
  · exact State.atTime_leads h _

end Sys2Proof.Machine
end

