-- ==== Sys2Proof/Laws/Facts.lean ====
section
/-! SUPPORT. What single operations do exactly: changes of the operating state, the contents of a Link Controller,
errors of the supervisor, the front axle's changes of state, measurements of the draft unit, and the
beginning of a reset. -/

namespace Sys2Proof.Machine

variable {s t : State}

/-! ### Commands outside a reset, and times -/

theorem State.unlessReset_on {f : State → State} (h : s.resetting = none) : s.unlessReset f = f s := by
  simp [State.unlessReset, h]

theorem State.inUse_of_tables (h : t.tables = s.tables) (id : TableId) : t.inUse id = s.inUse id := by
  simp [State.inUse, State.table, h]

/-! ### Settling (log 7) -/

/-- A reaction leaves a Link Controller but for the mark of a rewritten offer. -/
theorem Reacts.link (h : Reacts s t) (l : Link) : t.link l = { s.link l with offer := (t.link l).offer } := by
  cases l
  · exact h.tLink
  · show t.vLink = { s.vLink with offer := t.vLink.offer }
    rw [h.vLink]

/-- A reaction writes no mailbox but ShiftRecord. -/
theorem Reacts.mailbox (h : Reacts s t) {id : MailboxId} (k : id ≠ .shiftRecord) : t.mail.get id = s.mail.get id := by
  rw [h.mail]
  cases id <;> first | rfl | exact absurd rfl k

/-- A reaction changes no cause (R170). -/
theorem Reacts.causes (h : Reacts s t) :
    t.safeStopCause = s.safeStopCause ∧ t.degradedCause = s.degradedCause := by
  constructor
  · unfold State.safeStopCause
    have := h.mode
    simp only [State.slot, h.vLink, h.intake]
    rw [this]
  · unfold State.degradedCause
    simp only [State.slot, h.supervisor, h.intake]

/-- An operating state that no announcement leaves while the causes stay as they are (R170, R171). -/
def State.Parked (s : State) : Prop :=
  s.mode.op = .unloaded ∨ s.mode.op = .setup ∨ s.mode.op = .latched ∨
    (s.mode.op = .safeStop ∧ s.safeStopCause = true) ∨
    (s.mode.op = .run ∧ s.safeStopCause = false ∧ s.degradedCause = false) ∨
    (s.mode.op = .degraded ∧ s.safeStopCause = false ∧ s.degradedCause = true)

theorem State.Parked.exitTest (h : s.Parked) : s.exitTest = s := by
  unfold State.exitTest
  rw [if_neg]
  rintro ⟨a, _, _, b⟩
  rcases h with h | h | h | h | h | h <;> simp_all

theorem State.Parked.causeEval (h : s.Parked) : s.causeEval = s := by
  have e := h.exitTest
  unfold State.causeEval
  rcases h with h | h | h | h | h | h
  · simp only [h]
  · simp only [h]
  · simp only [h]
  · simp only [h.1, e]
  · simp [h.1, h.2.1, h.2.2]
  · simp [h.1, h.2.1, h.2.2]

theorem State.Parked.acts (h : s.Parked) (k : Acts s t) : t.Parked := by
  have c := k.reacts.causes
  unfold State.Parked at *
  rw [k.mode, c.1, c.2]
  exact h

/-- The events of a command whose operating state stays. -/
theorem State.Parked.settled (h : s.Parked) : Acts s s.settled :=
  State.settled_keeps (P := Acts s) (fun _ n k => k.withFree n) (fun _ l k => k.withNotices l) (fun n _ k =>
    State.takeNotice_acts k n (fun _ => (h.acts k).causeEval) fun _ => (h.acts k).exitTest) (.refl s)

/-! ### The operating state (R167, R172) -/

/-- The hitch's part of a change writes the hitch alone (R122). -/
theorem State.hitchEnters_only (s : State) (old new : OpState) :
    s.hitchEnters old new = { s with hitch := (s.hitchEnters old new).hitch } := by
  unfold State.hitchEnters
  split
  · rw [s.hitchRun_moves.only]
  · split <;> rfl

/-- A change of the operating state writes the mode, the hitch and the trailer, and brings events. -/
theorem State.setOp_only (s : State) (op : OpState) : s.setOp op = { s with
    mode := { s.mode with op := op, runTimer := if op = .run then s.after Config.runMs else none }
    hitch := (s.setOp op).hitch, trailer := (s.setOp op).trailer
    notices := s.notices ++ (.entry op :: .axle :: if op = .run then [.causes] else []) } := by
  have h := State.hitchEnters_only { s with
    mode := { s.mode with op := op, runTimer := if op = .run then s.after Config.runMs else none } } s.mode.op op
  unfold State.setOp
  simp only
  rw [h]
  rfl

theorem State.setOp_mode (s : State) (op : OpState) :
    (s.setOp op).mode = { s.mode with op := op, runTimer := if op = .run then s.after Config.runMs else none } := by
  rw [State.setOp_only]

/-- An entry into SAFE_STOP, the fourth into LATCHED with its fault. -/
theorem State.enterSafeStop_mode (s : State) :
    s.enterSafeStop.mode = { s.mode with
      stops := min 4 (s.mode.stops + 1)
      op := if min 4 (s.mode.stops + 1) = 4 then .latched else .safeStop
      runTimer := none } ∧
    (min 4 (s.mode.stops + 1) = 4 → s.faults.Raises .safeStopLatched 0 s.enterSafeStop.faults) := by
  unfold State.enterSafeStop
  simp only
  by_cases h : min 4 (s.mode.stops + 1) = 4
  · rw [if_pos h, if_pos h]
    constructor
    · show (State.setOp _ _).mode = _
      rw [State.setOp_mode]; simp
    · intro _
      have a := (State.setOp_reacts { s with mode := { s.mode with stops := min 4 (s.mode.stops + 1) } } .latched).faults
      exact ⟨_, _, a.mono fun _ _ _ => trivial, .start⟩
  · rw [if_neg h, if_neg h]
    constructor
    · rw [State.setOp_mode]; simp
    · intro k
      exact absurd k h

/-! ### Link Controllers (R157 to R162) -/

/-- What a new content of a Link Controller changes besides: announcements, and the bus-off timer and cause. -/
theorem State.changeLink_fields (s : State) (l : Link) (c : LinkCtl) :
    (s.changeLink l c).link l = c ∧ (∀ k, k ≠ l → (s.changeLink l c).link k = s.link k) ∧
    (s.changeLink l c).now = s.now ∧ (s.changeLink l c).resetting = s.resetting ∧
    (s.changeLink l c).intake = s.intake ∧ (s.changeLink l c).tables = s.tables ∧ (s.changeLink l c).mgmt = s.mgmt ∧
    (s.changeLink l c).supervisor = s.supervisor ∧ (s.changeLink l c).draft = s.draft ∧
    (s.changeLink l c).mail = s.mail ∧ (s.changeLink l c).emission = s.emission ∧
    (s.changeLink l c).faults = s.faults := by
  cases l
  · refine ⟨rfl, ?_, rfl, rfl, rfl, rfl, rfl, rfl, rfl, rfl, rfl, rfl⟩
    intro k hk
    cases k
    · exact absurd rfl hk
    · rfl
  · have hb : ∀ (a b : ErrorState) (u : State), u.busOffNews a b = { u with mode := (u.busOffNews a b).mode } := by
      intro a b u
      unfold State.busOffNews
      split
      · rfl
      · split <;> rfl
    unfold State.changeLink
    simp only
    rw [hb]
    split
    all_goals
      refine ⟨rfl, ?_, rfl, rfl, rfl, rfl, rfl, rfl, rfl, rfl, rfl, rfl⟩
      intro k hk
      cases k
      · rfl
      · exact absurd rfl hk

/-! ### The Command Supervisor (R175) -/

theorem State.supervisorError_eq (s : State) : s.supervisorError =
    let e := min 255 (s.supervisor.errors + 1)
    if s.supervisor.tripped then { s with supervisor := { s.supervisor with errors := e, goodRun := 0 } }
    else if s.superT.trip ≤ e then
      { s with
        supervisor := { s.supervisor with errors := e, tripped := true, goodRun := 0 }
        faults := s.faults.raised .cmdSupervision 0 (s.after Config.ageMs), notices := s.notices ++ [.causes] }
    else { s with supervisor := { s.supervisor with errors := e } } := by
  unfold State.supervisorError State.announce State.announceAll State.raise State.withSupervisor
  rfl

/-! ### Front axle and grants (R88, R95, R104, R105) -/

theorem State.setFac_eq (s : State) (st : FacState) :
    (s.setFac st).now = s.now ∧ (s.setFac st).tables = s.tables ∧ (s.setFac st).motion = s.motion ∧
    (s.setFac st).mode = s.mode ∧ (s.setFac st).intake = s.intake ∧ (s.setFac st).shift = s.shift ∧
    (s.setFac st).notices = s.notices ++ [.refresh] ∧
    (s.setFac st).fac = { s.fac with
      state := st
      check := if s.fac.state = .released ∧ st ≠ .released then none else s.fac.check
      noRelease := if s.fac.state = .released ∧ st ≠ .released then false else s.fac.noRelease } := by
  unfold State.setFac
  simp only
  by_cases h : s.fac.state = .released ∧ st ≠ .released
  · simp only [if_pos h]
    exact ⟨rfl, rfl, rfl, rfl, rfl, rfl, rfl, rfl⟩
  · simp only [if_neg h]
    exact ⟨rfl, rfl, rfl, rfl, rfl, rfl, rfl, rfl⟩

theorem State.facGranted_eq (s : State) :
    s.facGranted.arbiter = s.arbiter ∧ s.facGranted.shift = s.shift ∧ s.facGranted.fac.state = .releaseFill ∧
    s.facGranted.fac.dwell = s.fac.dwell ∧ s.facGranted.now = s.now := by
  have h := s.setFac_eq .releaseFill
  have a := (s.setFac_fac .releaseFill).1
  unfold State.facGranted
  simp only
  refine ⟨a, h.2.2.2.2.2.1, ?_, ?_, h.1⟩ <;> rw [h.2.2.2.2.2.2.2]

theorem State.shiftGranted_fac (s : State) : s.shiftGranted.fac = s.fac := by
  unfold State.shiftGranted
  cases s.shift.order with
  | none => rfl
  | some o =>
    simp only
    by_cases h : o.phase = .waitSupply
    · rw [if_pos h]
      by_cases k : o.downSwap = true
      · rw [if_pos k]; rfl
      · rw [if_neg k]
    · rw [if_neg h]

theorem State.grantShift_fac (s : State) : s.grantShift.fac = s.fac := by
  unfold State.grantShift
  cases s.arbiter.shiftWait with
  | none => rfl
  | some n =>
    simp only
    by_cases h : n ≤ s.arbiter.count .free
    · rw [if_pos h, State.shiftGranted_fac]
    · rw [if_neg h]

/-! ### Draft capture (R110 to R116) -/

theorem State.channelResult_eq (s : State) (c : Channel) (v : Bool) :
    s.channelResult c v = { s with
      draft := s.draft.setChannel c ((s.draft.channel c).after v), faults := (s.channelResult c v).faults } := by
  unfold State.channelResult
  simp only
  split
  · rfl
  · split <;> rfl

theorem State.channelResult_faults (s : State) (c : Channel) (v : Bool) :
    (s.channelResult c v).faults =
      if (s.draft.channel c).failed = false ∧ ((s.draft.channel c).after v).failed = true
      then s.faults.raised .draftChannel c.index (s.after Config.ageMs)
      else if (s.draft.channel c).failed = true ∧ ((s.draft.channel c).after v).failed = false
      then s.faults.cleared .draftChannel c.index else s.faults := by
  unfold State.channelResult
  simp only
  cases (s.draft.channel c).failed <;> cases ((s.draft.channel c).after v).failed <;> rfl

theorem State.untilCount_eq (s : State) (n : Nat) : s.untilCount n = { s with
    now := s.now + (n - s.draft.timeCount)
    draft := { s.draft with timeCount := (s.untilCount n).draft.timeCount } } := by
  unfold State.untilCount State.atTime Draft.count
  simp only [State.mk.injEq, true_and]
  simp

/-- The edge counter reaches `stop` at `x`, the edges before it within the limit (R111, R112). -/
theorem countEdges_reaches {limit stop x : Nat} {rest : List Nat} :
    ∀ (taken : List Nat) (n : Nat), (∀ y ∈ taken, y ≤ limit) → x ≤ limit → n + taken.length + 1 = stop →
      countEdges limit stop n (taken ++ x :: rest) = (stop, some x)
  | [], n, _, hx, e => by
    have e' : n + 1 = stop := e
    rw [List.nil_append, countEdges, if_neg (Nat.not_lt.2 hx), if_pos e', e']
  | y :: ys, n, h, hx, e => by
    have e' : n + 1 + ys.length + 1 = stop := by rw [← e, List.length_cons]; omega
    rw [List.cons_append, countEdges, if_neg (Nat.not_lt.2 (h y (List.mem_cons_self ..))), if_neg (by omega)]
    exact countEdges_reaches ys (n + 1) (fun z hz => h z (List.mem_cons_of_mem _ hz)) hx e'

/-- The edge counter stays below `stop`: it counts the edges within the limit (R111, R112). -/
theorem countEdges_within {limit stop : Nat} {rest : List Nat} (late : ∀ y, rest.head? = some y → limit < y) :
    ∀ (taken : List Nat) (n : Nat), (∀ y ∈ taken, y ≤ limit) → n + taken.length < stop →
      countEdges limit stop n (taken ++ rest) = (n + taken.length, none)
  | [], n, _, _ => by
    cases rest with
    | nil => rfl
    | cons y ys => rw [List.nil_append, countEdges, if_pos (late y rfl)]; rfl
  | y :: ys, n, h, e => by
    have e' : n + 1 + ys.length < stop := by rw [List.length_cons] at e; omega
    rw [List.cons_append, countEdges, if_neg (Nat.not_lt.2 (h y (List.mem_cons_self ..))), if_neg (by omega),
      countEdges_within late ys (n + 1) (fun z hz => h z (List.mem_cons_of_mem _ hz)) e', List.length_cons]
    congr 1; omega

/-! ### The target under coupled braking (R57) -/

/-- Coupled braking at 0 sets no limit on the target (R57). -/
theorem State.keepTarget_uncoupled {s : State} (h : s.motion.record.coupled = false) : s.keepTarget = s := by
  unfold State.keepTarget; rw [h]; rfl

/-! ### The beginning of a reset (R173) -/

theorem State.beginReset_fields (s : State) (k : ResetKind) :
    (s.beginReset k).tables = s.tables ∧ (s.beginReset k).mail = s.mail ∧
    (∀ l, (s.beginReset k).link l = (s.link l).quiet) ∧
    (s.resetting = none → (s.beginReset k).resetting = some k) ∧ (s.beginReset k).neut = false := by
  have q := s.quiet_fields
  have ql : ∀ l, s.quiet.link l = (s.link l).quiet := by
    intro l
    cases l <;> simp only [State.quiet, State.link]
  unfold State.beginReset
  generalize s.quiet = y at q ql
  obtain ⟨_, _, _, _, q1, _, _, q2, _, _, _, _, q3, _⟩ := q
  refine ⟨q2, q3, ?_, ?_, rfl⟩
  · intro l
    rw [← ql]
    cases l <;> rfl
  · intro h
    show some (joinReset y.resetting k) = _
    rw [q1, h]
    cases k <;> rfl

end Sys2Proof.Machine
end

