-- ==== Sys2Proof/Laws/GearStill.lean ====
section
/-! SUPPORT. The gearbox side of a reaction leaves the front axle, the Motion Record, the announcements and the front
axle's fill slot as they are, unless a release of the front axle waits for its grant (chapters 3 to 6). -/

namespace Sys2Proof.Machine

/-- What the gearbox side leaves alone of the front axle's side, unless a release waits for its grant. -/
def Still (s0 s : State) : Prop := s0.fac.state ≠ .releaseWait →
  s.fac = s0.fac ∧ s.notices = s0.notices ∧ s.motion = s0.motion ∧
    s.arbiter.count .fac = s0.arbiter.count .fac ∧ s.mode = s0.mode ∧ s.intake = s0.intake

theorem Still.refl (s : State) : Still s s := fun _ => ⟨rfl, rfl, rfl, rfl, rfl, rfl⟩

theorem Still.trans {a b c : State} (h : Still a b) (k : Still b c) : Still a c := by
  intro n
  obtain ⟨h1, h2, h3, h4, h5, h6⟩ := h n
  obtain ⟨k1, k2, k3, k4, k5, k6⟩ := k (by rw [h1]; exact n)
  exact ⟨k1.trans h1, k2.trans h2, k3.trans h3, k4.trans h4, k5.trans h5, k6.trans h6⟩

variable {s0 s : State}

@[simp] theorem State.onlyIf_still (h : Still s0 s) (c : Bool) {f : State → State} (hf : Still s0 s → Still s0 (f s)) :
    Still s0 (s.onlyIf c f) := by
  unfold State.onlyIf
  split
  · exact hf h
  · exact h

@[simp] theorem Still.withTrailer (h : Still s0 s) (x : Trailer) : Still s0 { s with trailer := x } :=
  h.trans fun _ => ⟨rfl, rfl, rfl, rfl, rfl, rfl⟩

@[simp] theorem Still.withShift (h : Still s0 s) (x : Shift) : Still s0 { s with shift := x } :=
  h.trans fun _ => ⟨rfl, rfl, rfl, rfl, rfl, rfl⟩

@[simp] theorem Still.withNeut (h : Still s0 s) (x : Bool) : Still s0 { s with neut := x } :=
  h.trans fun _ => ⟨rfl, rfl, rfl, rfl, rfl, rfl⟩

theorem Still.ofGear (h : Still s0 s) {x : Gear} (_ : s.gear.Ok → x.Ok) : Still s0 { s with gear := x } :=
  h.trans fun _ => ⟨rfl, rfl, rfl, rfl, rfl, rfl⟩

theorem Still.sameGear (h : Still s0 s) {f : Gear → Gear} (_ : ∀ g : Gear, g.Same (f g)) : Still s0 (s.withGear f) :=
  h.trans fun _ => ⟨rfl, rfl, rfl, rfl, rfl, rfl⟩

theorem Still.dropped (h : Still s0 s) {f : Gear → Gear} (_ : ∀ g : Gear, (f g).shuttle = none ∧ (f g).flag = .none) :
    Still s0 (s.withGear f) :=
  h.trans fun _ => ⟨rfl, rfl, rfl, rfl, rfl, rfl⟩

@[simp] theorem State.setNeut_still (h : Still s0 s) : Still s0 s.setNeut := h.withNeut _

@[simp] theorem State.withOrder_still (h : Still s0 s) (o : Order) : Still s0 (s.withOrder o) := h.withShift _

@[simp] theorem State.withTarget_still (h : Still s0 s) (t : Option Nat) : Still s0 (s.withGear (·.withTarget t)) :=
  h.sameGear fun g => g.withTarget_same t

@[simp] theorem State.gearReleased_still (h : Still s0 s) (d : Dir) (r : Option Nat) :
    Still s0 (s.withGear fun g => g.released d r) := h.sameGear fun g => g.released_same d r

@[simp] theorem State.shiftRecord_still (h : Still s0 s) (data : List Byte) : Still s0 (s.writeMail .shiftRecord data) :=
  h.trans fun _ => ⟨rfl, rfl, rfl, rfl, rfl, rfl⟩

@[simp] theorem State.holdIfLatched_still (h : Still s0 s) : Still s0 s.holdIfLatched := h.withTrailer _

@[simp] theorem State.trailerEvaluate_still (h : Still s0 s) : Still s0 s.trailerEvaluate := by
  unfold State.trailerEvaluate; simp [h]

@[simp] theorem State.openWindow_still (h : Still s0 s) : Still s0 s.openWindow := by
  unfold State.openWindow; simp [h]

@[simp] theorem State.closeWindow_still (h : Still s0 s) : Still s0 s.closeWindow := by
  unfold State.closeWindow; split <;> simp [h]

@[simp] theorem State.shiftGranted_still (h : Still s0 s) : Still s0 s.shiftGranted := by
  unfold State.shiftGranted
  split
  · exact h
  · split
    · simp only
      split <;> simp [h]
    · exact h

theorem State.decideFill_still (s : State) : Still s s.decideFill := by
  unfold State.decideFill
  split
  · have a : Still s s.grantShift := by
      unfold State.grantShift
      split
      · exact .refl _
      · split
        · refine State.shiftGranted_still (fun _ => ⟨rfl, rfl, rfl, ?_, rfl, rfl⟩)
          rw [Arbiter.count_shiftWait]; exact (takes_shift (List.range _) s.arbiter).2
        · exact .refl _
    refine a.trans fun n => ?_
    generalize s.grantShift = v at n
    by_cases c : v.arbiter.facWait ∧ 1 ≤ v.arbiter.count .free ∧ v.arbiter.shiftWait = none
    · have : v.grantFac = { v with arbiter := { v.arbiter with facWait := false } } := by
        unfold State.grantFac; rw [if_pos c, if_neg n]
      rw [this]; exact ⟨rfl, rfl, rfl, rfl, rfl, rfl⟩
    · have : v.grantFac = v := by unfold State.grantFac; rw [if_neg c]
      rw [this]; exact ⟨rfl, rfl, rfl, rfl, rfl, rfl⟩
  · exact .refl _

@[simp] theorem State.shiftRequest_still (h : Still s0 s) (n : Nat) : Still s0 (s.shiftRequest n) :=
  have a : Still s { s with arbiter := { s.arbiter with shiftWait := some n } } := fun _ => ⟨rfl, rfl, rfl, rfl, rfl, rfl⟩
  h.trans (a.trans (State.decideFill_still _))

@[simp] theorem State.shiftWithdraw_still (h : Still s0 s) : Still s0 (s.shiftWithdraw) :=
  have a : Still s { s with arbiter := { s.arbiter with shiftWait := none } } := fun _ => ⟨rfl, rfl, rfl, rfl, rfl, rfl⟩
  h.trans (a.trans (State.decideFill_still _))

@[simp] theorem State.shiftGiveBack_still (h : Still s0 s) : Still s0 (s.shiftGiveBack) :=
  have a : Still s { s with arbiter := s.arbiter.giveBack .shift } := fun _ => ⟨rfl, rfl, rfl, by rw [Arbiter.count_giveBack_shift], rfl, rfl⟩
  h.trans (a.trans (State.decideFill_still _))

@[simp] theorem State.keepTarget_still (h : Still s0 s) : Still s0 s.keepTarget := by
  unfold State.keepTarget; split <;> simp [h]

/-! ### Orders taken (R45 to R52) -/

@[simp] theorem State.enterOrder_still (h : Still s0 s) (o : Order) : Still s0 (s.enterOrder o) := by
  have a : Still s0 ({ s with shift := { s.shift with order := some o } } : State).setNeut :=
    State.setNeut_still (h.withShift _)
  unfold State.enterOrder
  simp only
  split
  · exact State.shiftRequest_still a _
  · exact a

@[simp] theorem State.takeOrder_still (h : Still s0 s) (k : OrderKind) (a b : Option Nat) (d e : Dir) :
    Still s0 (s.takeOrder k a b d e) := by
  unfold State.takeOrder; simp (maxDischargeDepth := 9) [h]

@[simp] theorem State.issueSwap_still (h : Still s0 s) (a b : Nat) : Still s0 (s.issueSwap a b) := by
  unfold State.issueSwap; simp (maxDischargeDepth := 9) [h]

@[simp] theorem State.issueFree_still (h : Still s0 s) (b : Nat) : Still s0 (s.issueFree b) := by
  unfold State.issueFree; simp (maxDischargeDepth := 9) [h]

@[simp] theorem State.issueRelease_still (h : Still s0 s) (d : Dir) : Still s0 (s.issueRelease d) := by
  unfold State.issueRelease
  exact State.takeOrder_still (h.sameGear fun g => g.released_same _ _) _ _ _ _ _

@[simp] theorem State.requestInN_still (h : Still s0 s) (x : Dir) : Still s0 (s.requestInN x) := by
  have p : Still s0 (s.withGear fun g => { g with presel := x }) := h.sameGear fun g => ⟨rfl, rfl⟩
  unfold State.requestInN
  split
  · exact h
  · exact State.takeOrder_still (State.keepTarget_still p) _ _ _ _ _

@[simp] theorem State.issueShuttle_still (h : Still s0 s) (x y : Dir) : Still s0 (s.issueShuttle x y) := by
  unfold State.issueShuttle
  exact State.takeOrder_still (h.dropped fun g => ⟨rfl, rfl⟩) _ _ _ _ _

@[simp] theorem State.keepShuttle_still (h : Still s0 s) (x : Dir) : Still s0 (s.keepShuttle x) := by
  unfold State.keepShuttle
  split
  · exact h
  · exact h.ofGear fun _ => by simp [Gear.Ok]

@[simp] theorem State.scheduleTest_still (h : Still s0 s) : Still s0 s.scheduleTest := by
  have stop : Still s0 (s.withGear fun g => { g with deferral := .stopped }) := h.sameGear fun g => ⟨rfl, rfl⟩
  unfold State.scheduleTest
  split
  · exact h
  · simp only
    split
    · exact h
    · split
      · exact State.issueSwap_still (stop.sameGear fun g => g.withTarget_same _) _ _
      · exact stop
      · split
        · split
          · exact h.sameGear fun g => ⟨rfl, rfl⟩
          · exact h
        · exact State.issueSwap_still (stop.sameGear fun g => g.withTarget_same _) _ _

@[simp] theorem State.decideEngaged_still (h : Still s0 s) (m : Bool) : Still s0 (s.decideEngaged m) := by
  unfold State.decideEngaged
  split
  · split
    · simp (maxDischargeDepth := 9) [h]
    · split <;> simp (maxDischargeDepth := 9) [h]
  · exact h

@[simp] theorem State.decideFree_still (h : Still s0 s) : Still s0 s.decideFree := by
  unfold State.decideFree
  split
  · exact h
  · split <;> simp (maxDischargeDepth := 9) [h]

@[simp] theorem State.decideRequest_still (h : Still s0 s) (m : Bool) (x y : Dir) : Still s0 (s.decideRequest m x y) :=
  by
  unfold State.decideRequest
  split
  · simp (maxDischargeDepth := 9) [h]
  · split
    · exact h
    · split <;> simp (maxDischargeDepth := 9) [h]

@[simp] theorem State.decideIdle_still (h : Still s0 s) (m : Bool) : Still s0 (s.decideIdle m) := by
  unfold State.decideIdle
  split
  · split <;> simp (maxDischargeDepth := 9) [h]
  · split <;> simp (maxDischargeDepth := 9) [h]
  all_goals exact h

/-! ### Order ends (R50, R71, R78, R82) -/

@[simp] theorem State.orderEnd_still (h : Still s0 s) (o : Order) (r : OrderResult) (c : Int) :
    Still s0 (s.orderEnd o r c) := by
  have a : Still s0 (({ s with shift := { s.shift with order := none } } : State).withGear fun g => g.afterEnd o r) :=
    (h.withShift _).sameGear fun g => g.afterEnd_same o r
  have b := State.shiftRecord_still (State.keepTarget_still a) (shiftRecordData o r c)
  unfold State.orderEnd
  apply State.decideIdle_still
  apply State.setNeut_still
  exact b.sameGear fun g => ⟨rfl, rfl⟩

@[simp] theorem State.abortSwap_still (h : Still s0 s) (o : Order) : Still s0 (s.abortSwap o) := by
  unfold State.abortSwap
  split <;> simp (maxDischargeDepth := 9) [h]

@[simp] theorem State.handTarget_still (h : Still s0 s) (t : Option Nat) : Still s0 (s.handTarget t) := by
  unfold State.handTarget
  split
  · exact h
  · simp only
    split
    · simp (maxDischargeDepth := 9) [h]
    · split <;> simp (maxDischargeDepth := 9) [h]

/-! ### A RELEASE or a new request on an order in flight (R48, R49, R80, R81) -/

@[simp] theorem State.endEngagement_still (h : Still s0 s) (o : Order) : Still s0 (s.endEngagement o) := by
  unfold State.endEngagement
  split
  · exact h
  · simp only
    split <;> simp (maxDischargeDepth := 9) [h]

@[simp] theorem State.releaseOrder_still (h : Still s0 s) (o : Order) : Still s0 (s.releaseOrder o) := by
  unfold State.releaseOrder
  split
  · split <;> simp (maxDischargeDepth := 9) [h]
  · split <;> simp (maxDischargeDepth := 9) [h]
  · simp (maxDischargeDepth := 9) [h]
  · exact h
  · exact h
  · split
    · exact (State.withOrder_still h _).sameGear fun g => ⟨rfl, rfl⟩
    · simp (maxDischargeDepth := 9) [h]
    · simp (maxDischargeDepth := 9) [h]

@[simp] theorem State.release_still (h : Still s0 s) : Still s0 s.release := by
  unfold State.release
  split
  · simp (maxDischargeDepth := 9) [h]
  · split <;> simp (maxDischargeDepth := 9) [h]

@[simp] theorem State.decideInFlight_still (h : Still s0 s) (o : Order) : Still s0 (s.decideInFlight o) := by
  unfold State.decideInFlight
  split
  · simp (maxDischargeDepth := 9) [h]
  · split <;> simp (maxDischargeDepth := 9) [h]

@[simp] theorem State.gearDecide_still (h : Still s0 s) (m : Bool) : Still s0 (s.gearDecide m) := by
  unfold State.gearDecide
  split
  · simp (maxDischargeDepth := 9) [h]
  · split <;> simp (maxDischargeDepth := 9) [h]

/-! ### Requests, headland, braking (R44, R52, R57, R58) -/

@[simp] theorem State.pressTarget_still (h : Still s0 s) (u d : Nat) : Still s0 (s.pressTarget u d) := by
  unfold State.pressTarget
  split <;> simp (maxDischargeDepth := 9) [h]

@[simp] theorem State.newDirection_still (h : Still s0 s) : Still s0 s.newDirection := by
  unfold State.newDirection
  split
  · exact h.dropped fun g => ⟨rfl, rfl⟩
  · exact h

@[simp] theorem State.newShiftMode_still (h : Still s0 s) : Still s0 s.newShiftMode := by
  unfold State.newShiftMode
  split
  · exact h.sameGear fun g => ⟨rfl, rfl⟩
  · exact h

@[simp] theorem State.headlandTarget_still (h : Still s0 s) (g : Nat) : Still s0 (s.headlandTarget g) := by
  unfold State.headlandTarget; simp (maxDischargeDepth := 9) [h]

@[simp] theorem State.headlandOut_still (h : Still s0 s) : Still s0 s.headlandOut := by
  unfold State.headlandOut
  simp only
  split
  · split <;> simp (maxDischargeDepth := 9) [h]
  · exact h

@[simp] theorem State.headlandIn_still (h : Still s0 s) (g : Option Nat) (d : DirState) : Still s0 (s.headlandIn g d) :=
  by
  unfold State.headlandIn
  split
  · exact h
  · split
    · exact h
    · simp (maxDischargeDepth := 9) [h]
    · split <;> simp (maxDischargeDepth := 9) [h]

@[simp] theorem State.gearBrakeStart_still (h : Still s0 s) : Still s0 s.gearBrakeStart := by
  have a : Still s0 (s.handTarget s.heldTarget) := State.handTarget_still h _
  unfold State.gearBrakeStart
  simp only
  split
  · split
    · exact State.abortSwap_still a _
    · exact a
  · exact a

/-- What an accepted frame brings to the selector (R44, R45). -/
@[simp] theorem State.gearNews_still (h : Still s0 s) (n : OperatorNews) : Still s0 (s.gearNews n) := by
  unfold State.gearNews
  refine State.onlyIf_still ?_ _ fun k => State.gearDecide_still k _
  apply State.pressTarget_still
  refine State.onlyIf_still ?_ _ State.newShiftMode_still
  exact State.onlyIf_still h _ State.newDirection_still

/-! ### Changes of the Gear Table and of the operating state (R41 to R43, R83) -/

@[simp] theorem State.gearTableChanged_still (h : Still s0 s) : Still s0 s.gearTableChanged := by
  unfold State.gearTableChanged
  apply State.gearDecide_still
  exact h.sameGear fun g => ⟨rfl, rfl⟩

@[simp] theorem State.gearDegraded_still (h : Still s0 s) : Still s0 s.gearDegraded := by
  have a : Still s0 (s.withGear fun g => { g.dropShuttle with deferral := .stopped }) := h.dropped fun g => ⟨rfl, rfl⟩
  unfold State.gearDegraded
  simp only
  split
  · split <;> simp (maxDischargeDepth := 9) [a]
  · split <;> simp (maxDischargeDepth := 9) [a]

@[simp] theorem State.gearSafeStop_still (h : Still s0 s) : Still s0 s.gearSafeStop := by
  unfold State.gearSafeStop
  apply State.release_still
  exact h.dropped fun _ => ⟨rfl, rfl⟩

@[simp] theorem State.gearSetup_still (h : Still s0 s) : Still s0 s.gearSetup := by
  have a : Still s0 (s.withGear fun g => { g.dropShuttle with deferral := .stopped }) := h.dropped fun g => ⟨rfl, rfl⟩
  unfold State.gearSetup
  simp only
  split
  · simp (maxDischargeDepth := 9) [a]
  · split
    all_goals first | exact a | skip
    all_goals split <;> simp (maxDischargeDepth := 9) [a]

@[simp] theorem State.gearRun_still (h : Still s0 s) : Still s0 s.gearRun := by
  unfold State.gearRun; simp (maxDischargeDepth := 9) [h]

end Sys2Proof.Machine
end

