-- ==== Sys2Proof/Laws/PerInstr.lean ====
section
/-! SUPPORT. Family Checks: a well-formed command's frame is taken as it stands, with no byte made up. One lemma per
command. -/

namespace Sys2Proof

/-- The DLC code and the data bytes of the frame a command brings; a request's code byte comes first. -/
def Instr.frameOperand : Instr → Option (Fin 16 × List Byte)
  | .signalFrame _ _ _ f => some (f.dlcCode, f.bytes)
  | .operatorCommand _ _ _ f => some (f.dlcCode, f.bytes)
  | .unmatchedFrame _ _ _ f => some (f.dlcCode, f.bytes)
  | .statusQuery _ c r => some (r.dlcCode, c :: r.rest)
  | .enterSetup _ r => some (r.dlcCode, 0x02 :: r.rest)
  | .leaveSetup _ r => some (r.dlcCode, 0x03 :: r.rest)
  | .selectTable _ r => some (r.dlcCode, 0x10 :: r.rest)
  | .writeWords _ r => some (r.dlcCode, 0x11 :: r.rest)
  | .readWords _ r => some (r.dlcCode, 0x12 :: r.rest)
  | .commitTable _ r => some (r.dlcCode, 0x13 :: r.rest)
  | .faultAck _ r => some (r.dlcCode, 0x20 :: r.rest)
  | .captureZero _ r => some (r.dlcCode, 0x30 :: r.rest)
  | .restart _ r => some (r.dlcCode, 0x3F :: r.rest)
  | _ => none

end Sys2Proof

namespace Sys2Proof.Laws.Checks

/-- The bytes taken from a well-formed command's frame are those it brings, as many as its DLC says (R156). -/
def Statement (i : Instr) : Prop :=
  i.wf = true → ∀ d bs, i.frameOperand = some (d, bs) → Machine.rxData d bs = bs.take (min 8 d.val)

theorem taken {d : Fin 16} {bs : List Byte} (h : min 8 d.val ≤ bs.length) :
    Machine.rxData d bs = bs.take (min 8 d.val) := by
  unfold Machine.rxData
  rw [List.take_append_of_le_length h]

theorem frame {f : RxFrame} (h : f.wf = true) : Machine.rxData f.dlcCode f.bytes = f.bytes.take (min 8 f.dlcCode.val) :=
  taken (by simp only [RxFrame.wf, beq_iff_eq] at h; omega)

theorem request {c : Byte} {r : ReqFrame} (h : r.wf = true) :
    Machine.rxData r.dlcCode (c :: r.rest) = (c :: r.rest).take (min 8 r.dlcCode.val) :=
  taken (by simp only [ReqFrame.wf, beq_iff_eq] at h; simp only [List.length_cons]; omega)

theorem powerOnReset : Statement .powerOnReset := nofun
theorem pinReset : Statement .pinReset := nofun
theorem resetEnd : Statement .resetEnd := nofun
theorem restartBegin : Statement .restartBegin := nofun
theorem signalFrame (time : Time) (link : Link) (early : Bool) (frame : RxFrame) : Statement (.signalFrame time link early frame) :=
  fun h _ _ e => by cases e; exact Checks.frame (Bool.and_eq_true _ _ ▸ h).1
theorem operatorCommand (time : Time) (link : Link) (early : Bool) (frame : RxFrame) : Statement (.operatorCommand time link early frame) :=
  fun h _ _ e => by cases e; exact Checks.frame (Bool.and_eq_true _ _ ▸ h).1
theorem unmatchedFrame (time : Time) (link : Link) (early : Bool) (frame : RxFrame) : Statement (.unmatchedFrame time link early frame) :=
  fun h _ _ e => by cases e; exact Checks.frame (Bool.and_eq_true _ _ ▸ h).1
theorem otherFrameReceived (link : Link) : Statement (.otherFrameReceived link) := nofun
theorem frameRxError (link : Link) : Statement (.frameRxError link) := nofun
theorem statusQuery (time : Time) (code : Byte) (req : ReqFrame) : Statement (.statusQuery time code req) :=
  fun h _ _ e => by cases e; exact Checks.request (Bool.and_eq_true _ _ ▸ h).1
theorem enterSetup (time : Time) (req : ReqFrame) : Statement (.enterSetup time req) :=
  fun h _ _ e => by cases e; exact Checks.request h
theorem leaveSetup (time : Time) (req : ReqFrame) : Statement (.leaveSetup time req) :=
  fun h _ _ e => by cases e; exact Checks.request h
theorem selectTable (time : Time) (req : ReqFrame) : Statement (.selectTable time req) :=
  fun h _ _ e => by cases e; exact Checks.request h
theorem writeWords (time : Time) (req : ReqFrame) : Statement (.writeWords time req) :=
  fun h _ _ e => by cases e; exact Checks.request h
theorem readWords (time : Time) (req : ReqFrame) : Statement (.readWords time req) :=
  fun h _ _ e => by cases e; exact Checks.request h
theorem commitTable (time : Time) (req : ReqFrame) : Statement (.commitTable time req) :=
  fun h _ _ e => by cases e; exact Checks.request h
theorem faultAck (time : Time) (req : ReqFrame) : Statement (.faultAck time req) :=
  fun h _ _ e => by cases e; exact Checks.request h
theorem captureZero (time : Time) (req : ReqFrame) : Statement (.captureZero time req) :=
  fun h _ _ e => by cases e; exact Checks.request h
theorem restart (time : Time) (req : ReqFrame) : Statement (.restart time req) :=
  fun h _ _ e => by cases e; exact Checks.request h
theorem transmitOffer (link : Link) : Statement (.transmitOffer link) := nofun
theorem txSuccess (link : Link) : Statement (.txSuccess link) := nofun
theorem txError (link : Link) : Statement (.txError link) := nofun
theorem arbitrationLost (link : Link) : Statement (.arbitrationLost link) := nofun
theorem busOffRecovery (link : Link) : Statement (.busOffRecovery link) := nofun
theorem linkSuspectTimeout (link : Link) : Statement (.linkSuspectTimeout link) := nofun
theorem linkFailedTimeout (link : Link) : Statement (.linkFailedTimeout link) := nofun
theorem passageDropTimeout (link : Link) : Statement (.passageDropTimeout link) := nofun
theorem slotTimeout (slot : Fin 16) : Statement (.slotTimeout slot) := nofun
theorem slotHoldExpiry (slot : Fin 16) : Statement (.slotHoldExpiry slot) := nofun
theorem standstillTimerExpiry : Statement .standstillTimerExpiry := nofun
theorem shuttlePendingExpiry : Statement .shuttlePendingExpiry := nofun
theorem holdOffExpiry : Statement .holdOffExpiry := nofun
theorem deferralTimerExpiry : Statement .deferralTimerExpiry := nofun
theorem clutchStep : Statement .clutchStep := nofun
theorem fillWaitTimeout : Statement .fillWaitTimeout := nofun
theorem syncTimeout : Statement .syncTimeout := nofun
theorem facPulseEnd : Statement .facPulseEnd := nofun
theorem facFillEnd : Statement .facFillEnd := nofun
theorem dwellExpiry : Statement .dwellExpiry := nofun
theorem brakeHoldExpiry : Statement .brakeHoldExpiry := nofun
theorem releaseCheckExpiry : Statement .releaseCheckExpiry := nofun
theorem refGateEnd (edges : List Nat) : Statement (.refGateEnd edges) := nofun
theorem refOverrange : Statement .refOverrange := nofun
theorem sensorMeasurementEnd (edges : List Nat) : Statement (.sensorMeasurementEnd edges) := nofun
theorem sensorStall : Statement .sensorStall := nofun
theorem hitchControlStep : Statement .hitchControlStep := nofun
theorem brakeStep : Statement .brakeStep := nofun
theorem stretchTailExpiry : Statement .stretchTailExpiry := nofun
theorem lineCheckExpiry : Statement .lineCheckExpiry := nofun
theorem emissionTimer : Statement .emissionTimer := nofun
theorem busOffTimerExpiry : Statement .busOffTimerExpiry := nofun
theorem runTimerExpiry : Statement .runTimerExpiry := nofun
theorem lateTimerExpiry : Statement .lateTimerExpiry := nofun
theorem faultAgeTick (kind : FaultKind) (index : Fin 16) : Statement (.faultAgeTick kind index) := nofun
theorem firstEdge : Statement .firstEdge := nofun

end Sys2Proof.Laws.Checks
end

