-- ==== Sys2Proof/Tests/Slice0.lean ====
section
/-! SUPPORT. Tests: the checks of WellFormed refuse ill-formed commands, the worked cases of the manual, one small step
of each kind of command, and for every statement with hypotheses a state and operands that meet them. -/

namespace Sys2Proof.Tests

open Sys2Proof Sys2Proof.Machine

set_option maxRecDepth 100000

/-! ### Helpers -/

/-- The state a command leads to. -/
def ran (c : Instr) (s : State) : State :=
  match exec c s with
  | .next t => t
  | .fault f => nomatch f
  | .refused _ => s

/-- A received frame. -/
def rx (ident : Nat) (bytes : List Nat) : RxFrame :=
  ⟨BitVec.ofNat 11 ident, Fin.ofNat 16 bytes.length, bytes.map (BitVec.ofNat 8)⟩

/-- The bytes of a request after its code. -/
def rq (rest : List Nat) : ReqFrame := ⟨Fin.ofNat 16 (rest.length + 1), rest.map (BitVec.ofNat 8)⟩

def reset : State := State.reset

def withOp (op : OpState) (s : State) : State := { s with mode := { s.mode with op := op } }

/-- A table loaded and COMMITTED. -/
def withTable (id : TableId) (ws : List TWord) (s : State) : State := s.setTable id ⟨.committed, ws⟩

/-- A slot FRESH with a value. -/
def withSlot (i : Fin 16) (v : Int) (s : State) : State := s.setSlot i ⟨.fresh, v, some 100000⟩

def atStandstill (s : State) : State :=
  { s with motion := { s.motion with record := { s.motion.record with standstill := true } } }

def requesting (d : DirState) (s : State) : State :=
  { s with intake := { s.intake with record := { s.intake.record with direction := d } } }

def coupled (s : State) : State :=
  { s with motion := { s.motion with record := { s.motion.record with coupled := true } } }

def atSpeed (v : Int) (s : State) : State :=
  { s with motion := { s.motion with record := { s.motion.record with vg := v } } }

/-! ### WellFormed refuses each kind of ill-formed command -/

theorem test_wf_frame_short : (Instr.signalFrame 0 .t false ⟨0x188, 6, [1, 2, 3]⟩).wf = false := by decide
theorem test_wf_frame_long : (Instr.unmatchedFrame 0 .v false ⟨0x188, 15, List.replicate 9 0⟩).wf = false := by decide
theorem test_wf_frame_request : (Instr.operatorCommand 0 .t false (rx 0x7B0 [1])).wf = false := by decide
theorem test_wf_request_short : (Instr.writeWords 0 ⟨8, [1, 2]⟩).wf = false := by decide
theorem test_wf_request_long : (Instr.restart 0 ⟨0, [1]⟩).wf = false := by decide
theorem test_wf_status_code : (Instr.statusQuery 0 0x10 (rq [])).wf = false := by decide
theorem test_wf_edges : (Instr.sensorMeasurementEnd [65536]).wf = false ∧ (Instr.sensorMeasurementEnd []).wf = false ∧
    (Instr.refGateEnd [5, 4]).wf = false := by decide
theorem test_wf_edges_overrange : (Instr.refGateEnd (List.replicate 4095 0)).wf = false := by simp [Instr.wf]
theorem test_wf_accepts : (Instr.signalFrame 0 .t false (rx 0x188 [1, 2, 3, 4, 5, 6])).wf = true ∧
    (Instr.signalFrame 0 .v false (rx 0x7B0 [1])).wf = true ∧ (Instr.statusQuery 0 0x55 (rq [])).wf = true ∧
    (Instr.sensorMeasurementEnd [4, 4, 65535]).wf = true ∧ (Instr.refGateEnd []).wf = true ∧ (Instr.restart 0 ⟨0, []⟩).wf = true := by decide

/-! ### Worked cases of the manual -/

/-- Section 1.2, the worked extractions: slot, bytes, BIG, SIGNED, multiplier, shift, offset, value. -/
def extracted (slot : Fin 16) (bytes : List Nat) (big signed : Bool) (mult shift : Nat) (offset : Int) : Int :=
  (Extraction.mk slot (bytes.length == 2) big signed 0 shift mult offset).value (bytes.map (BitVec.ofNat 8))

theorem test_worked_extractions :
    extracted 5 [0xB8, 0x0B] false false 1 0 0 = 3000 ∧ extracted 0 [0x41, 0xA0] true false 1 3 0 = 2100 ∧
    extracted 0 [0x00, 0x7D] false false 1 3 (-500) = 3500 ∧ extracted 10 [0xDB] false true 5 1 0 = -93 ∧
    extracted 11 [0xD2] false false 5 0 0 = 1000 ∧ extracted 12 [0xFA] false false 80 0 0 = 20000 ∧
    (Extraction.mk 12 false false false 0 0 80 0).available [0xFF] = false := by decide

/-- Section 13.6, the stored words of the reset entry 0x188. -/
theorem test_reset_map_words :
    wordBytes (wordAt resetIntakeMap 4) = [1, 6, 0x88, 0x01, 10, 3] ∧
    wordBytes (wordAt resetIntakeMap 5) = [18, 0, 1, 0, 0, 0] := by decide

/-- Section 2.2, the slip table. -/
theorem test_worked_slip :
    slipOf true 1200 1020 = 150 ∧ slipOf true 1300 1310 = -7 ∧ slipOf true 50 0 = 1000 ∧ slipOf true 49 0 = 0 ∧
    slipOf true 100 300 = -1000 ∧ slipOf true 2000 1999 = 0 := by decide

/-- Section 2.2, the filter table. -/
theorem test_worked_filter :
    filterOf true true 0 150 = 18 ∧ filterOf true true 18 150 = 34 ∧ filterOf true true (-100) 0 = -88 ∧
    filterOf true true 122 104 = 120 ∧ filterOf true true 57 56 = 57 := by decide

/-- Section 2.4, the worked sequence of coupled braking with P_couple 800. -/
theorem test_worked_coupled :
    coupledAfter false 900 700 800 = false ∧ coupledAfter false 1000 850 800 = true ∧
    coupledAfter true 700 650 800 = true ∧ coupledAfter true 700 590 800 = false ∧
    coupledAfter false 790 810 800 = false ∧ coupledAfter false 800 800 800 = true := by decide

/-- Section 7.3, the draft value table. -/
theorem test_worked_draft :
    sideDraft 8000 96 6666 = 500 ∧ sideDraft 8000 96 6720 = 480 ∧ sideDraft 8000 96 9000 = -375 ∧
    sideDraft 8000 96 8001 = 0 ∧ sideDraft 8000 96 1000 = 2000 := by decide

/-- Section 8.4, cases A, B and C of the law under the reset Hitch Table. -/
theorem test_worked_law :
    lawOf (hitchTable resetHitch) ⟨400, 420, 500, .both, 60, 50, 0, false, 0⟩ false = -393 ∧
    lawOf (hitchTable resetHitch) ⟨600, 520, 180, .both, 50, 20, 12, true, 170⟩ false = -100 ∧
    lawOf (hitchTable resetHitch) ⟨400, 420, 0, .none, 60, 50, 0, false, 0⟩ false = 60 ∧
    upperLimited (hitchTable resetHitch) 960 (-393) = 0 := by decide

/-- R69, R73 and R75: the worked values of the sync test, a dump of 2000 kPa, and the pedal limit. -/
theorem test_worked_clutch :
    syncTest 628 2100 1229 25 = true ∧ syncTest 604 2100 1229 25 = false ∧
    (List.range 33).foldl (fun v _ => v - 60) 2000 = 20 ∧ pedalLimit 2000 500 = 1000 ∧ pedalLimit 2000 750 = 370 ∧
    pedalLimit 2000 100 = 2000 ∧ pedalLimit 2000 899 = 0 ∧ pedalLimit 2000 900 = 0 := by decide

/-- R67, the fill table: T_pulse, A, T_hold, pulse steps, hold steps. -/
theorem test_worked_fill :
    let steps := fun (tPulse : Nat) (a : Int) (tHold : Nat) =>
      let p : Profile := { profile [] 0 with tPulse := tPulse, adapt := a, tHold := tHold }
      (p.pulseMs / 10, p.fillSteps)
    steps 60 10 40 = (7, 11) ∧ steps 10 (-30) 0 = (1, 1) ∧ steps 280 50 300 = (30, 60) := by decide

/-- Section 9.2, the pedal demand table. -/
theorem test_worked_curve :
    let c := [(0, 0), (500, 1200), (2000, 3500), (4000, 6500), (6000, 9500)]
    curveAt c 3000 = 5000 ∧ curveAt c 300 = 720 ∧ curveAt c 1999 = 3498 ∧
    curveAt (curvePoints resetTrailer) 7300 = 7300 ∧ curveAt (curvePoints resetTrailer) 18000 = 14000 := by decide

/-- R185: the register after the bytes of "123456789" is 0x29B1, and the CRC of the reset Axle Table. -/
theorem test_crc_check :
    ([0x31, 0x32, 0x33, 0x34, 0x35, 0x36, 0x37, 0x38, 0x39] : List Byte).foldl crcByte 0xFFFF#16 = 0x29B1#16 := by decide

/-- R18: counters that wrap, and a jump. -/
theorem test_presses :
    presses (some 14) 2 = 4 ∧ presses (some 3) 10 = 7 ∧ presses (some 3) 11 = 0 ∧ presses none 5 = 0 := by decide

/-! ### A configured part -/

/-- The reset map with the entries 0x190 (slots 0, 1, 14) and 0x198 (slots 12, 11, 13), forwarded, and the Operator
Command entry forwarded too. -/
def testMap : List TWord :=
  resetIntakeMap.take 8 ++ [wordOf 18 8 0x00 0x02 10 0, 0, 0, 0]
    ++ [wordOf 17 6 0x90 0x01 10 3, resetExtraction 0 0 1, resetExtraction 1 2 1, resetExtraction 14 4 1]
    ++ [wordOf 17 6 0x98 0x01 10 3, resetExtraction 12 0 1, resetExtraction 11 2 1, resetExtraction 13 4 1]
    ++ resetIntakeMap.drop 20

def gearWord (speed range direction ratio : Nat) : TWord := wordOf speed range direction 1 (ratio % 256) (ratio / 256)

/-- Gears F1, F2, F5 and R1 enabled; K 2. -/
def testGears : List TWord :=
  ((((resetGear.set 0 (wordOf 0 12 (2 + 16) 0xB0 0x04 20)).set 1 (gearWord 0 0 0 400)).set 2 (gearWord 1 0 0 600)).set 5
    (gearWord 0 1 0 900)).set 13 (gearWord 0 0 1 400)

/-- T_sync_max 100 ms, W_sync 25, supply minimum 1000 kPa, T_fill_wait 100 ms; every clutch alike. -/
def testClutches : List TWord :=
  BitVec.ofNat 48 (10 + 25 * 2 ^ 8 + 10 * 2 ^ 16 + 10 * 2 ^ 23 + 100 * 2 ^ 30 + 10 * 2 ^ 39)
    :: (List.replicate 10 [wordOf 200 180 6 30 2 40, wordOf 10 80 20 0 0 0]).flatten

/-- In RUN at rest in F1, direction F engaged. -/
def driving : State :=
  let s := withOp .run (withTable .clutch testClutches (withTable .gear testGears (withTable .intakeMap testMap reset)))
  requesting .f { s with
    gear := { s.gear with dirState := .f, current := some 0, ownTarget := some 0, preF := some 0, preR := some 12 }
    intake := { s.intake with slots := Vector.ofFn s.freshSlot } }

/-- The swap from F1 to F2, granted its slot. -/
def swap : Order :=
  { newOrder testGears .swap1 (some 0) (some 1) .f .f with
    oncoming := [⟨1, 400⟩], offgoing := [⟨0, 0⟩], driving := true }

def withSwap (p : Phase) (count : Nat) (s : State) : State :=
  { s with shift := { s.shift with order := some { swap with phase := p, count := count } } }

theorem test_gear_table : ladder testGears .f = [0, 1, 4] ∧ ladder testGears .r = [12] ∧
    checkGear testGears = none ∧ checkIntakeMap testMap = none ∧ checkClutch testClutches = none ∧
    checkEmission testMap resetEmission = none ∧ checkAxle resetAxle = none ∧ checkHitch resetHitch = none ∧
    checkTrailer resetTrailer = none ∧ checkSupervision resetSupervision = none ∧
    checkSchedule resetShiftSchedule = none ∧ checkSlotTable resetSlotTable = none := by decide

theorem test_commit_failures :
    checkGear resetGear = some 1 ∧ checkClutch resetClutch = some 0 ∧ checkIntakeMap resetIntakeMap = some 48 ∧
    checkEmission testMap (resetEmission.set 0 (wordOfHalves 0x110 0x110 0x120)) = some 1 ∧
    checkTrailer (resetTrailer.set 0 (wordOfHalves 800 1000 1001)) = some 0 ∧
    checkTrailer (resetTrailer.set 3 (wordOfHalves 0 2000 0)) = some 3 ∧
    checkAxle (resetAxle.set 0 (wordOfHalves 1600 1600 250)) = some 0 ∧
    checkHitch (resetHitch.set 3 (wordOfHalves 1001 0 0)) = some 3 ∧
    checkSupervision [wordOf 6 6 3 25 0 0] = some 0 ∧
    checkSchedule (resetShiftSchedule.set 12 (wordOfHalves 1700 1500 0)) = some 12 := by decide

/-! ### Steps -/

theorem test_step_runs_front : ∀ c ∈ [Instr.emissionTimer, .clutchStep, .brakeStep],
    (match step { reset with pending := [c, .pinReset] } with
      | .next t => t.pending
      | .fault _ => []
      | .refused _ => []) = [.pinReset] := by decide

theorem test_no_word_spells_a_command : (reset.withFetchWord 32 5) = reset := by decide

/-- Section 1.3, the worked sequence of WHEEL_REAR: 40 ms and 90 ms, then 140 ms, then 340 ms. -/
theorem test_wheel_rear_frames :
    let a := ran (.signalFrame 40000 .t false (rx 0x188 [0xB0, 4, 0xFF, 0xFF, 0xFF, 0xFF])) reset
    let b := ran (.signalFrame 90000 .t false (rx 0x188 [0xFF, 0xFF, 0, 0, 0xFF, 0xFF])) a
    a.slot 2 = ⟨.fresh, 1200, some 140000⟩ ∧ b.slot 2 = a.slot 2 ∧ b.slot 3 = ⟨.fresh, 0, some 190000⟩ := by decide

theorem test_wheel_rear_held :
    let c := ran (.slotTimeout 2) (reset.setSlot 2 ⟨.fresh, 1200, some 140000⟩)
    c.slot 2 = ⟨.held, 1200, some 340000⟩ ∧ c.now = 140000 ∧ c.shown 2 = 1200 := by decide

theorem test_wheel_rear_lost :
    let d := ran (.slotHoldExpiry 2) (reset.setSlot 2 ⟨.held, 1200, some 340000⟩)
    (d.slot 2).state = .substituted ∧ d.shown 2 = 0 ∧
    d.faults.entries = [⟨.signalLost, 2, false, 1, 0, some 1340000⟩] := by decide

/-- R10, R23: a change of the Slot Table announces every slot that shows a substitute, so the refresh takes a newer
value of RADAR, although no substitute changes its value. -/
theorem test_slot_table_change :
    (withSlot 4 500 reset).substitutesChanged.settled.motion.record.vg = 500 ∧ (withSlot 4 500 reset).motion.record.vg = 0 := by
  decide

/-- Section 2.2, the first frame of the worked sequence. -/
theorem test_slip_sequence :
    (ran (.signalFrame 0 .t false (rx 0x188 [0xB0, 4, 0x4C, 4, 0xFC, 3])) reset).motion.record =
      ⟨1020, .radar, 1200, 150, 18, true, false, false⟩ := by decide

/-- R181 and R186: the reply of a STATUS_QUERY after a reset. -/
theorem test_status_reply : (ran (.statusQuery 10 1 (rq [])) reset).mail.reply =
    ⟨some [1, 0, 0, 0, 0, 0, 0, 0], true⟩ := by decide

theorem test_unknown_code : (ran (.statusQuery 10 0x55 (rq [])) reset).mail.reply =
    ⟨some [0x55, 11, 0, 0, 0, 0, 0, 0], true⟩ := by decide

theorem test_enter_setup :
    let t := ran (.enterSetup 10 (rq [])) reset
    t.mode.op = .setup ∧ t.mail.reply.content = some [2, 0, 0, 0, 0, 0, 0, 0] := by decide

/-- A commit of table 7 in SETUP, with its CRC and with another. -/
theorem test_commit :
    let s := withOp .setup reset
    let c := (crcOf resetAxle).toNat
    ((ran (.commitTable 10 (rq [7, c % 256, c / 256])) s).table .axle).state = .committed ∧
    (ran (.commitTable 10 (rq [7, c % 256 + 1, c / 256])) s).mail.reply.content = some [0x13, 8, 0, 0, 0, 0, 0, 0] := by
  decide

/-- R183 and R184: select, write and read back. -/
theorem test_write_read :
    let a := ran (.selectTable 10 (rq [9, 4])) (withOp .setup reset)
    let b := ran (.writeWords 20 (rq [4, 1, 2, 3, 4, 5, 6])) a
    let c := ran (.readWords 30 (rq [])) (ran (.selectTable 25 (rq [9, 4])) b)
    a.mgmt.cursor = some ⟨.trailer, 4⟩ ∧ b.mgmt.cursor = some ⟨.trailer, 5⟩ ∧
    (b.table .trailer).state = .uncommitted ∧
    c.mail.reply.content = some [0x12, 0, 1, 2, 3, 4, 5, 6] := by decide

theorem test_fault_ack :
    let s := { reset with faults := (reset.faults.raised .trailerLine 0 none).cleared .trailerLine 0 }
    (ran (.faultAck 10 (rq [1, 9, 0])) s).faults.entries = [] ∧
    (ran (.faultAck 10 (rq [2, 9, 0])) s).mail.reply.content = some [0x20, 11, 0, 0, 0, 0, 0, 0] := by decide

theorem test_capture_zero :
    (ran (.captureZero 10 (rq [3])) (withOp .setup reset)).mgmt.capture = some ⟨true, true, 0, 0, 0, 0, 0⟩ := by decide

theorem test_restart :
    let a := ran (.restart 10 (rq [])) (atStandstill reset)
    a.mgmt.restart = some 100010 ∧ (ran .restartBegin a).resetting = some .management ∧
    (ran .resetEnd (ran .restartBegin a)).mode.cause = .management := by decide

/-- R188: the transmission of the DONE reply begins the restart (log 20). -/
theorem test_restart_by_reply :
    let a := ran (.transmitOffer .t) (ran (.restart 10 (rq [])) (atStandstill reset))
    (ran (.txSuccess .t) a).resetting = some .management := by decide

/-- R181, R188: a MALFORMED reply that replaces the DONE reply begins no restart (log 20). -/
theorem test_malformed_reply_begins_no_restart :
    let a := ran (.statusQuery 20 0x99 (rq [])) (ran (.restart 10 (rq [])) (atStandstill reset))
    a.mail.reply.content = some [0x99, 11, 0, 0, 0, 0, 0, 0] ∧
    (ran (.txSuccess .t) (ran (.transmitOffer .t) a)).resetting = none := by decide

theorem test_pin_reset :
    let a := ran .pinReset reset
    a.resetting = some .pin ∧ a.neut = false ∧ a.rstn = false ∧ (ran .clutchStep a) = a ∧
    (ran .powerOnReset a).resetting = some .powerOn := by decide

theorem test_forward :
    let t := ran (.signalFrame 10 .t false (rx 0x190 [1, 0, 2, 0, 3, 0])) driving
    t.vLink.queue = [⟨0x190, [1, 0, 2, 0, 3, 0]⟩] ∧ t.slot 0 = ⟨.fresh, 1, some 100010⟩ := by decide

theorem test_unmatched :
    let t := ran (.unmatchedFrame 10 .v false (rx 0x188 [1, 2, 3, 4, 5, 6])) reset
    t.intake = reset.intake ∧ t.vLink.silenceStart = some 10 := by decide

theorem test_operator_frame :
    let t := ran (.operatorCommand 10 .t false (rx 0x200 [0x3C, 0x21, 0x01, 0x10, 255, 60, 50, 12])) reset
    t.intake.record = ⟨.f, .manual, .off, .none, .none, true, 250, 60, 50, 12, some 1, some 2⟩ ∧
    t.supervisor = ⟨false, false, 0, some 10, some 60010, 0⟩ := by decide

/-- Section 11.6: the third late expiry trips the supervisor, and RUN becomes DEGRADED. -/
theorem test_supervisor_trips :
    let t := ran .lateTimerExpiry { driving with supervisor := ⟨false, true, 2, some 0, some 280000, 0⟩ }
    t.supervisor.tripped = true ∧ t.supervisor.errors = 3 ∧ t.mode.op = .degraded ∧ t.now = 280000 := by decide

theorem test_error_counts :
    let s := { reset with vLink := { reset.vLink with rxCount := 127 } }
    (ran (.frameRxError .v) s).vLink.error = .passive ∧
    (ran (.otherFrameReceived .v) (ran (.frameRxError .v) s)).vLink.error = .active := by decide

/-- R157 and R159: a count of 248 passes 255 and the V-link goes BUS_OFF. -/
theorem test_bus_off :
    let s := ran (.transmitOffer .v) (ran .brakeStep { reset with vLink := { reset.vLink with txCount := 248 } })
    let t := ran (.txError .v) s
    t.vLink.error = .busOff ∧ t.mode.busOffTimer = some 510000 ∧ (ran (.busOffRecovery .v) t).vLink.error = .active ∧
    (ran (.busOffRecovery .v) t).mode.busOffTimer = none := by decide

theorem test_offer_lowest :
    let t := ran (.transmitOffer .v) (ran .clutchStep (ran .brakeStep reset))
    (t.vLink.offer.map (·.frame.ident)) = some 0x110 ∧ (ran (.txSuccess .v) t).mail.clutchA.pending = false ∧
    (ran (.arbitrationLost .v) t).mail.clutchA.pending = true := by decide

theorem test_silence :
    let a := ran (.linkSuspectTimeout .v) reset
    let b := ran (.linkFailedTimeout .v) a
    a.vLink.silence = .suspect ∧ a.now = 200000 ∧ b.vLink.silence = .failed ∧ b.now = 1000000 := by decide

theorem test_passage_drop :
    let s := { driving with vLink := { driving.vLink with queue := List.replicate 8 ⟨1, []⟩ } }
    let t := ran (.signalFrame 10 .t false (rx 0x190 [1, 0, 2, 0, 3, 0])) s
    t.vLink.queue.length = 8 ∧ t.vLink.dropTimer = some 1000010 ∧
    (ran (.passageDropTimeout .v) t).vLink.dropTimer = none := by decide

theorem test_standstill :
    let s := { reset with motion := { reset.motion with timer := some 500000 } }
    (ran .standstillTimerExpiry s).motion = ⟨{ reset.motion.record with standstill := true }, none⟩ := by decide

theorem test_selector_timers :
    let s := { driving with gear := { driving.gear with
      shuttle := some ⟨.r, 0, some 5⟩, flag := .pending, holdOff := some 7, deferral := .running (some 9) } }
    (ran .shuttlePendingExpiry s).gear.flag = .dropped ∧ (ran .holdOffExpiry s).gear.holdOff = none ∧
    (ran .deferralTimerExpiry s).gear.deferral = .expired := by decide

/-- In F1 held: S1 and RA at P_max, FWD at P_max under a released pedal. -/
theorem test_clutch_step_holds :
    let t := ran .clutchStep driving
    t.shift.commands.toList = [2000, 0, 0, 0, 2000, 0, 0, 2000, 0, 0] ∧ t.neut = false ∧
    t.mail.clutchA.content = some [200, 0, 0, 0, 200, 0, 0, 1] := by decide

theorem test_fill_wait_timeout :
    let s := withSwap .waitSupply 9 { driving with arbiter := { driving.arbiter with shiftWait := some 1 } }
    let t := ran .fillWaitTimeout s
    t.mail.shiftRecord.content = some [0, 1, 0, 4, 1, 0, 0, 0] ∧ t.shift.order = none ∧ t.gear.current = some 0 := by
  decide

theorem test_sync_timeout :
    let t := ran .syncTimeout (withSlot 1 26 (withSwap .sync 9 driving))
    (t.shift.order.map fun o => (o.phase, o.forced, o.count)) = some (.lock, true, 0) ∧
    t.faults.entries = [⟨.shiftSyncTimeout, 1, false, 1, 0, some 1010000⟩] := by decide

/-- The LOCK step that follows: FORCED_LOCK, and F2 is the current gear. -/
theorem test_lock_step :
    let t := ran .clutchStep { withSwap .lock 0 driving with
      shift := { (withSwap .lock 0 driving).shift with order := some { swap with phase := .lock, forced := true } } }
    t.gear.current = some 1 ∧ t.mail.shiftRecord.content = some [0, 1, 0, 2, 1, 0, 0, 0] := by decide

/-- R57: the target stays at the reference gear while coupled braking is 1; a press during a SHUTTLE has taken it above,
and at the end of the order it comes down and case 4 issues no upshift. -/
theorem test_coupled_target_kept :
    let s := coupled { driving with gear := { driving.gear with
      dirState := .n, current := some 12, ownTarget := some 12, preF := some 4 } }
    let o : Order := { swap with kind := .shuttle, fromGear := some 12, toGear := some 0, sub := .engage, phase := .lock }
    let t := s.orderEnd o .completed 0
    s.gear.target = some 4 ∧ t.gear.current = some 0 ∧ t.gear.target = some 0 ∧ t.shift.order = none := by decide

theorem test_front_axle_timers :
    let fill := { driving with
      fac := ⟨.releaseFill, 1800, 300, some 60, some 80, some 90, none, none, false⟩
      arbiter := ⟨.fac, .free, none, false⟩, intake := { driving.intake with record := { driving.intake.record with driveMode := .off } } }
    (ran .facPulseEnd fill).fac.fillKPa = 300 ∧ (ran .facFillEnd fill).fac.state = .released ∧
    (ran .facFillEnd fill).arbiter.slot1 = .free ∧ (ran .dwellExpiry fill).fac.dwell = none ∧
    (ran .brakeHoldExpiry { fill with fac := { fill.fac with brakeHold := some 3 } }).fac.brakeHold = none ∧
    (ran .releaseCheckExpiry { fill with fac := ⟨.released, 0, 0, none, none, none, none, some 9, false⟩ }).fac.noRelease =
      true := by decide

/-- The values of the time counter at `n` edges of which the last comes at `q`. -/
def edgesTo (n q : Nat) : List Nat := List.replicate (n - 1) 1 ++ [q]

/-- Section 7.4: a cycle whose sides give 6666 and 6720 counts, from 80 edges each within the gate and a later one. -/
theorem test_draft_cycle :
    let gate := List.replicate 80 1 ++ [8001]
    let a := ran .firstEdge (ran (.refGateEnd gate) reset)
    let b := ran (.sensorMeasurementEnd (edgesTo 80 6666)) a
    let c := ran .firstEdge (ran (.refGateEnd gate) b)
    let d := ran (.sensorMeasurementEnd (edgesTo 80 6720)) c
    a.now = 8000 ∧ a.draft.eRef = some 80 ∧ b.draft.qL = some 6666 ∧ b.now = 14666 ∧ d.draft.record = ⟨500, 480, 980, .both⟩ ∧
    d.draft.pos = .refLeft := by decide

theorem test_draft_failures :
    (ran .refOverrange { reset with draft := { reset.draft with edgeCount := 4094 } }).draft.pos = .refRight ∧
    (ran (.refGateEnd (List.replicate 15 1)) reset).draft.chRef.invalidRun = 1 ∧
    (ran .sensorStall { reset with draft := { reset.draft with pos := .right, qL := some 6666 } }).draft.record =
      ⟨500, 0, 1000, .leftOnly⟩ := by decide

theorem test_control_step :
    let s := withSlot 11 420 { withOp .run reset with
      hitch := { reset.hitch with state := .control }
      draft := { reset.draft with record := ⟨250, 250, 500, .both⟩ }
      intake := { reset.intake with record := { reset.intake.record with dial := 100, mix := 60, drop := 50 } } }
    let t := ran .hitchControlStep s
    t.mail.hitchValve.content = some [0x77, 0xFE, 2] ∧ t.hitch.correcting = true := by decide

theorem test_brake_step :
    let t := ran .brakeStep (withSlot 5 7300 (withSlot 6 100 reset))
    t.trailer.command = 7300 ∧ t.trailer.source = .pedal ∧
    (ran .brakeStep (withSlot 5 0 t)).trailer.command = 7100 ∧
    (ran .stretchTailExpiry { t with trailer := { t.trailer with tail := some 5 } }).trailer.tail = none ∧
    (ran .lineCheckExpiry { t with trailer := { t.trailer with lineCheck := some 5 } }).trailer.lineFault = true := by
  decide

theorem test_emission :
    (ran .emissionTimer reset).mail.statusDrive.content = some [0, 0, 255, 255, 0, 1, 0, 0] ∧
    (ran .emissionTimer reset).emission = some 200000 := by decide

theorem test_mode_timers :
    let s := { driving with mode := { driving.mode with busOffTimer := some 500000, runTimer := some 600000000, stops := 3 } }
    (ran .busOffTimerExpiry s).mode.op = .latched ∧ (ran .busOffTimerExpiry s).mode.stops = 4 ∧
    (ran .runTimerExpiry s).mode.stops = 0 := by decide

theorem test_age_tick :
    let s := { reset with faults := reset.faults.raised .linkFailed 1 (some 1000000) }
    (ran (.faultAgeTick .linkFailed 1) s).faults.entries = [⟨.linkFailed, 1, false, 1, 1, some 2000000⟩] := by decide

/-! ### For each statement with hypotheses, a state and operands that meet them

A theorem `witness_<Name>` belongs to the statement of that name and has a part for each of its clauses; for a law that
is a part of a statement the theorem stands at the end of this file. -/

theorem witness_EmptyQueueTicksTheTimeBase :
    reset.pending = [] ∧ reset.resetting = none ∧ (ran .pinReset reset).pending = [] ∧
    (ran .pinReset reset).resetting ≠ none := by decide

def waitingEmission : State := { reset with pending := [.emissionTimer] }

theorem witness_EveryStepKeepsTheInvariant : waitingEmission.Ok ∧ ∃ t, step waitingEmission = .next t := by
  refine ⟨?_, _, rfl⟩
  exact
    { tables := by intro id; cases id <;> decide
      faults := ⟨by decide, List.Pairwise.nil, by decide, by decide⟩
      tLink := ⟨by decide, by decide, by decide, by decide⟩
      vLink := ⟨by decide, by decide, by decide, by decide⟩
      record := ⟨by decide, by decide, by decide, by decide⟩
      motion := ⟨⟨by decide, by decide⟩, ⟨by decide, by decide⟩, by decide⟩
      draft := ⟨⟨by decide, by decide⟩, ⟨by decide, by decide⟩, ⟨by decide, by decide⟩⟩
      mode := ⟨by decide, by decide⟩
      supervisor := ⟨by decide, by decide⟩
      gear := by unfold Gear.Ok; decide
      hitch := ⟨by decide, by decide, by decide⟩
      memory := by decide
      fac := ⟨by decide, by decide⟩
      fill := ⟨by decide, by decide⟩ }

theorem witness_ResetEndGivesTheStateAfterAReset :
    (ran .powerOnReset reset).resetting = some .powerOn ∧ (ran .pinReset reset).resetting = some .pin ∧
    (State.beginReset .management reset).resetting = some .management := by decide

def restarting : State := { reset with mgmt := { reset.mgmt with restart := some 100000 } }

theorem witness_PendingRestartBeginsAfterItsWait :
    restarting.resetting = none ∧ restarting.mgmt.restart = some 100000 ∧ reset.resetting = none ∧
    reset.mgmt.restart = none := by decide

theorem witness_OnlyResetCommandsActDuringAReset :
    (ran .pinReset reset).resetting ≠ none ∧ Instr.clutchStep.ofReset = false ∧
    Instr.restartBegin.ofReset = false := by decide

theorem witness_TablesChangeByTheirWritersAlone :
    Instr.brakeStep.wf = true ∧ Instr.brakeStep.writesTables = false ∧
    (Instr.statusQuery 0 1 (rq [])).wf = true ∧ (Instr.statusQuery 0 1 (rq [])).writesTables = false := by decide

theorem witness_OperatorRecordChangesByMatchedFramesAlone :
    Instr.powerOnReset ≠ .resetEnd ∧ Instr.powerOnReset.matched = false ∧
    (Instr.captureZero 0 (rq [1])).matched = false := by decide

theorem witness_SlotsChangeByTheirWritersAlone :
    Instr.clutchStep.wf = true ∧ Instr.clutchStep.writesSlots = false ∧
    (Instr.enterSetup 0 (rq [])).writesSlots = false := by decide

/-- A frame is matched to an entry, by a check of the 48 entries. -/
theorem matchedTo_of {s : State} {l : Link} {f : Frame} {e : MapEntry} (request : ¬(l = .t ∧ f.ident = 0x7B0))
    (inMap : e ∈ mapEntries (s.inUse .intakeMap)) (fits : e.kind ≠ .unused ∧ e.link = l ∧ e.ident = f.ident)
    (alone : ∀ e' ∈ mapEntries (s.inUse .intakeMap), e'.kind ≠ .unused → e'.link = l → e'.ident = f.ident → e' = e)
    (long : e.minDlc ≤ f.data.length) : MatchedTo s l f e :=
  ⟨request, ⟨inMap, fits⟩, fun e' h => alone e' h.1 h.2.1 h.2.2.1 h.2.2.2, long⟩

/-- The entries of the test map: 0x188 as after reset, the Operator Command entry, and 0x190. -/
def speeds : MapEntry := mapEntry testMap 1
def operator : MapEntry := mapEntry testMap 2
def engine : MapEntry := mapEntry testMap 3

/-- WHEEL_REAR valid, WHEEL_FRONT not available, RADAR valid. -/
def speedFrame : RxFrame := rx 0x188 [0xB0, 4, 0xFF, 0xFF, 0xFC, 3]

theorem driving_matches_speeds : MatchedTo driving .t (rxFrame speedFrame) speeds :=
  matchedTo_of (by decide) (by decide) (by decide) (by decide) (by decide)

theorem driving_matches_engine : MatchedTo driving .t (rxFrame (rx 0x190 [1, 0, 2, 0, 3, 0])) engine :=
  matchedTo_of (by decide) (by decide) (by decide) (by decide) (by decide)

theorem driving_matches_operator (data : List Nat) (h : data.length = 8) :
    MatchedTo driving .t (rxFrame (rx 0x200 data)) operator := by
  refine matchedTo_of (by simp [rxFrame, rx]) (by decide) ?_ ?_ ?_
  · show operator.kind ≠ .unused ∧ operator.link = .t ∧ operator.ident = 0x200
    decide
  · show ∀ e' ∈ mapEntries (driving.inUse .intakeMap), e'.kind ≠ .unused → e'.link = .t → e'.ident = 0x200 → e' = operator
    decide
  · show 8 ≤ (rxData (Fin.ofNat 16 data.length) (data.map (BitVec.ofNat 8))).length
    rw [h]
    show 8 ≤ ((data.map (BitVec.ofNat 8) ++ List.replicate 8 0).take 8).length
    rw [List.length_take, List.length_append, List.length_map, h]
    decide

theorem witness_SignalFrameUpdatesItsSlots :
    driving.resetting = none ∧ (driving.link .t).error ≠ .busOff ∧ MatchedTo driving .t (rxFrame speedFrame) speeds ∧
    speeds.kind = .signal ∧ (speeds.extractions.map (·.slot)).Nodup ∧
    (∀ x ∈ speeds.extractions, (driving.slot x.slot).state ≠ .unmapped) ∧
    (∃ x ∈ speeds.extractions, x.present (rxFrame speedFrame).data = true ∧ x.available (rxFrame speedFrame).data = true) ∧
    (∃ x ∈ speeds.extractions, x.available (rxFrame speedFrame).data = false) ∧ driving.Undisturbed .t ∧
    driving.Undisturbed .v :=
  ⟨by decide, by decide, driving_matches_speeds, by decide, by decide, by decide, by decide, by decide,
    by unfold State.Undisturbed; decide, by unfold State.Undisturbed; decide⟩

theorem witness_UnmatchedFrameIsCountedAndDropped :
    reset.resetting = none ∧ (reset.link .v).error ≠ .busOff ∧ Unmatched reset .v (rxFrame speedFrame) ∧
    Unmatched reset .t (rxFrame (rx 0x188 [1, 2, 3, 4, 5])) := by
  have none : ∀ (l : Link) (f : RxFrame), ¬(l = .t ∧ f.ident = 0x7B0) →
      (∀ e ∈ mapEntries resetIntakeMap, e.kind ≠ .unused → e.link = l → e.ident = (rxFrame f).ident →
        (rxFrame f).data.length < e.minDlc) → Unmatched reset l (rxFrame f) := fun l f h k =>
    ⟨fun n => h ⟨n.1, BitVec.eq_of_toNat_eq n.2⟩, fun e h => k e h.1 h.2.1 h.2.2.1 h.2.2.2⟩
  exact ⟨by decide, by decide, none _ _ (by decide) (by decide), none _ _ (by decide) (by decide)⟩

/-- A passage queue of the V-link with `n` frames. -/
def queued (n : Nat) : State := { driving with vLink := { driving.vLink with queue := List.replicate n ⟨1, []⟩ } }

theorem witness_MatchedFrameIsForwardedWhenFlagged :
    driving.resetting = none ∧ (driving.link .t).error ≠ .busOff ∧ MatchedTo driving .t (rxFrame speedFrame) speeds ∧
    speeds.forward = false ∧ MatchedTo driving .t (rxFrame (rx 0x190 [1, 0, 2, 0, 3, 0])) engine ∧
    engine.forward = true ∧ (driving.link .v).queue.length < 8 ∧
    MatchedTo (queued 8) .t (rxFrame (rx 0x190 [1, 0, 2, 0, 3, 0])) engine ∧ 8 ≤ ((queued 8).link .v).queue.length ∧
    ((queued 7).link .v).queue.length < 8 :=
  ⟨by decide, by decide, driving_matches_speeds, by decide, driving_matches_engine, by decide, by decide,
    driving_matches_engine, by decide, by decide⟩

def lastAt (t : Nat) : State := { driving with supervisor := { driving.supervisor with lastAccepted := some t } }

def trippedAt (good : Nat) : State :=
  { driving with supervisor := { driving.supervisor with tripped := true, goodRun := good } }

theorem witness_AcceptedOperatorFrameUpdatesRecordAndSupervisor :
    (lastAt 0).resetting = none ∧ ((lastAt 0).link .t).error ≠ .busOff ∧
    MatchedTo (lastAt 0) .t (rxFrame (rx 0x200 [0x3C, 0, 0, 0, 0, 0, 0, 0])) operator ∧ operator.kind = .operator ∧
    (∀ t0, (lastAt 0).supervisor.lastAccepted = some t0 →
      (lastAt 0).superT.tMinMs * Config.msTicks ≤ max (lastAt 0).now 10000 - t0) ∧
    dataAt (rxFrame (rx 0x200 [0x3C, 0, 0, 0, 0, 0, 0, 0])).data 0 = (if (lastAt 0).supervisor.expectLow then 0x3C else 0xC3) ∧
    (lastAt 0).supervisor.tripped = false ∧ (trippedAt 24).supervisor.tripped = true ∧
    (trippedAt 24).superT.recovery ≤ min 255 ((trippedAt 24).supervisor.goodRun + 1) ∧
    ¬(trippedAt 23).superT.recovery ≤ min 255 ((trippedAt 23).supervisor.goodRun + 1) ∧
    (trippedAt 24).supervisor.lastAccepted = none ∧ (lastAt 0).Undisturbed .t := by
  refine ⟨by decide, by decide, driving_matches_operator _ rfl, by decide, ?_, by decide, by decide, by decide, by decide,
    by decide, by decide, by unfold State.Undisturbed; decide⟩
  intro t0 h
  have e : t0 = 0 := (Option.some.inj h).symm
  subst e; decide

theorem witness_DiscardedOperatorFrameIsAnError :
    MatchedTo (lastAt 1) .t (rxFrame (rx 0x200 [0x3C, 0, 0, 0, 0, 0, 0, 0])) operator ∧
    (lastAt 1).resetting = none ∧ ((lastAt 1).link .t).error ≠ .busOff ∧ operator.kind = .operator ∧
    (∃ t0, (lastAt 1).supervisor.lastAccepted = some t0 ∧
      max (lastAt 1).now 10000 - t0 < (lastAt 1).superT.tMinMs * Config.msTicks) ∧
    MatchedTo driving .t (rxFrame (rx 0x200 [0xC3, 0, 0, 0, 0, 0, 0, 0])) operator ∧
    dataAt (rxFrame (rx 0x200 [0xC3, 0, 0, 0, 0, 0, 0, 0])).data 0 ≠ (if driving.supervisor.expectLow then 0x3C else 0xC3) :=
  ⟨driving_matches_operator _ rfl, by decide, by decide, by decide, ⟨1, rfl, by decide⟩, driving_matches_operator _ rfl,
    by decide⟩

theorem witness_OtherFramesAndErrorsMoveTheReceiveCount :
    reset.resetting = none ∧ (reset.link .t).error ≠ .busOff ∧ (reset.link .v).error ≠ .busOff := by decide

def busOff : State := { reset with vLink := { reset.vLink with error := .busOff, txCount := 255 } }

theorem witness_BusOffControllerReceivesNothing :
    (Instr.frameRxError .v).received = some .v ∧ (busOff.link .v).error = .busOff := by decide

/-! Management requests. -/

theorem witness_ShortOrUnknownRequestIsMalformed :
    (Instr.restart 5 ⟨0, []⟩).request = some (5, 0x3F, ⟨0, []⟩) ∧ reset.Ready ∧ reset.tLink.error ≠ .busOff ∧
    (Instr.captureZero 5 (rq [])).request = some (5, 0x30, rq []) ∧ 1 ≤ (rq []).dlcCode.val ∧
    minimumDlc 0x30 = some ((rq []).dlcCode.val + 1) ∧
    (Instr.statusQuery 5 0x55 (rq [])).request = some (5, 0x55, rq []) ∧ minimumDlc 0x55 = none := by
  unfold State.Ready; decide

def capturing : State := { reset with mgmt := { reset.mgmt with capture := some ⟨true, false, 0, 0, 0, 0, 0⟩ } }

theorem witness_RequestsMeetCaptureAndRestart :
    (Instr.restart 5 (rq [])).request = some (5, 0x3F, rq []) ∧ capturing.Ready ∧ capturing.tLink.error ≠ .busOff ∧
    minimumDlc 0x3F = some (rq []).dlcCode.val ∧ capturing.mgmt.capture ≠ none ∧ restarting.Ready ∧
    restarting.tLink.error ≠ .busOff ∧ restarting.mgmt.capture = none ∧ restarting.mgmt.restart ≠ none ∧
    (Instr.statusQuery 5 0x01 (rq [])).request = some (5, 0x01, rq []) := by
  unfold State.Ready; decide

theorem witness_StatusQueryReportsStateAndTables :
    capturing.Ready ∧ capturing.tLink.error ≠ .busOff ∧ capturing.mgmt.restart = none ∧ 1 ≤ (rq []).dlcCode.val := by
  unfold State.Ready; decide

/-- Parked: standstill, PARK at 1, direction state N. -/
def parked : State := atStandstill (withSlot 7 1 reset)

theorem witness_EnterSetupFollowsTheOperatingState :
    (∀ op : OpState, (withOp op parked).Takes (rq []) 1 ∧ (withOp op parked).mode.op = op) ∧
    ((withOp .run parked).motion.record.standstill = true ∧ (withOp .run parked).shown park = 1 ∧
      (withOp .run parked).gear.dirState = .n) ∧
    ¬(driving.motion.record.standstill = true ∧ driving.shown park = 1 ∧ driving.gear.dirState = .n) ∧
    driving.Takes (rq []) 1 := by
  unfold State.Takes State.Ready
  exact ⟨by intro op; cases op <;> decide, by decide, by decide, by decide⟩

/-- Every table COMMITTED with its reset content, in SETUP. -/
def loaded : State :=
  withOp .setup (TableId.all.foldl (fun s id => withTable id id.resetWords s) reset)

theorem witness_LeaveSetupNeedsTablesSupervisorAndNeutral :
    (reset.Takes (rq []) 1 ∧ reset.mode.op ≠ .setup) ∧
    ((withOp .setup reset).Takes (rq []) 1 ∧ (withOp .setup reset).mode.op = .setup ∧
      ((withOp .setup reset).table .intakeMap).state ≠ .committed) ∧
    (requesting .f loaded).intake.record.direction ≠ .n ∧ loaded.Takes (rq []) 1 ∧ loaded.mode.op = .setup ∧
    (∀ id : TableId, (loaded.table id).state = .committed) ∧ loaded.supervisor.tripped = false ∧
    loaded.intake.record.direction = .n ∧ ¬ SafeStopCause loaded ∧ ¬ DegradedCause loaded := by
  unfold State.Takes State.Ready SafeStopCause DegradedCause
  refine ⟨by decide, by decide, by decide, by decide, by decide, ?_, by decide, by decide, by decide, by decide⟩
  intro id; cases id <;> decide

def withCursor (t : TableId) (word : Nat) (s : State) : State :=
  { s with mgmt := { s.mgmt with cursor := some ⟨t, word⟩ } }

theorem witness_SelectAndReadMoveTheCursor :
    reset.Takes (rq [11, 0]) 3 ∧ (∀ tb : TableId, tb.toNat ≠ reqByte 0x10 (rq [11, 0]) 1) ∧
    (∀ tb : TableId, tb.toNat ≠ reqByte 0x10 (rq [0, 0]) 1) ∧
    (TableId.supervision.toNat = reqByte 0x10 (rq [10, 1]) 1 ∧ TableId.supervision.size ≤ reqByte 0x10 (rq [10, 1]) 2) ∧
    (TableId.intakeMap.toNat = reqByte 0x10 (rq [1, 191]) 1 ∧ reqByte 0x10 (rq [1, 191]) 2 < TableId.intakeMap.size) ∧
    reset.Takes (rq []) 1 ∧ reset.mgmt.cursor = none ∧ (withCursor .supervision 1 reset).Takes (rq []) 1 ∧
    TableId.supervision.size ≤ 1 ∧ 0 < TableId.supervision.size := by
  unfold State.Takes State.Ready
  refine ⟨by decide, ?_, ?_, by decide, by decide, by decide, by decide, by decide, by decide, by decide⟩ <;>
    intro tb <;> cases tb <;> decide

theorem witness_WriteWordsWritesTheCursorWord :
    let r := fun k => rq [k, 1, 2, 3, 4, 5, 6]
    let s := withOp .setup (withCursor .supervision 0 reset)
    reset.Takes (r 0) 8 ∧ reset.mode.op ≠ .setup ∧
    (withOp .setup reset).Takes (r 0) 8 ∧ (withOp .setup reset).mgmt.cursor = none ∧
    s.Takes (r 1) 8 ∧ s.mode.op = .setup ∧ reqByte 0x11 (r 1) 1 ≠ 0 % 256 ∧ reqByte 0x11 (r 0) 1 = 0 % 256 ∧
    0 < TableId.supervision.size ∧ (withOp .setup (withCursor .supervision 1 reset)).Takes (r 1) 8 ∧
    reqByte 0x11 (r 1) 1 = 1 % 256 ∧ TableId.supervision.size ≤ 1 ∧ (s.table .supervision).state ≠ .committed ∧
    (withTable .supervision resetSupervision s).Takes (r 0) 8 := by
  unfold State.Takes State.Ready; decide

theorem witness_CommitTableChecksCrcAndContent :
    let s := withOp .setup reset
    let crc := fun ws => (crcOf ws).toNat
    let r := fun (id : Nat) (ws : List TWord) => rq [id, crc ws % 256, crc ws / 256]
    let sent := fun r => reqByte 0x13 r 2 + 256 * reqByte 0x13 r 3
    reset.Takes (r 7 resetAxle) 4 ∧ reset.mode.op ≠ .setup ∧ s.Takes (r 7 resetAxle) 4 ∧ s.mode.op = .setup ∧
    (∀ tb : TableId, tb.toNat ≠ reqByte 0x13 (rq [11, 0, 0]) 1) ∧
    (TableId.axle.toNat = reqByte 0x13 (rq [7, 0, 0]) 1 ∧ crc (s.table .axle).loaded ≠ sent (rq [7, 0, 0])) ∧
    (crc (s.table .gear).loaded = sent (r 4 resetGear) ∧
      commitCheck .gear (s.inUse .intakeMap) (s.table .gear).loaded = some 1) ∧
    crc (s.table .axle).loaded = sent (r 7 resetAxle) ∧
    commitCheck .axle (s.inUse .intakeMap) (s.table .axle).loaded = none := by
  unfold State.Takes State.Ready
  refine ⟨by decide, by decide, by decide, by decide, ?_, by decide, by decide, by decide, by decide⟩
  intro tb; cases tb <;> decide

/-- A list with an ACTIVE and a STORED entry. -/
def faulty : State :=
  { reset with faults := ((reset.faults.raised .trailerLine 0 none).cleared .trailerLine 0).raised .draftChannel 1 none }

theorem witness_FaultAckRemovesStoredEntries :
    let named := fun (r : ReqFrame) (e : FaultEntry) => e.kind.code == reqByte 0x20 r 2 && e.index == reqByte 0x20 r 3
    faulty.Takes (rq [2, 9, 0]) 4 ∧ 1 < reqByte 0x20 (rq [2, 9, 0]) 1 ∧ reqByte 0x20 (rq [0, 9, 0]) 1 = 0 ∧
    reqByte 0x20 (rq [1, 9, 0]) 1 = 1 ∧
    faulty.heardFaults.entries.find? (named (rq [1, 9, 0])) = some ⟨.trailerLine, 0, true, 1, 0, none⟩ ∧
    faulty.heardFaults.entries.find? (named (rq [1, 8, 1])) = some ⟨.draftChannel, 1, false, 1, 0, none⟩ ∧
    faulty.heardFaults.entries.find? (named (rq [1, 8, 2])) = none := by
  unfold State.Takes State.Ready; decide

theorem witness_CaptureZeroIsAcceptedInSetup :
    reset.Takes (rq [0]) 2 ∧ reqByte 0x30 (rq [0]) 1 = 0 ∧ 3 < reqByte 0x30 (rq [4]) 1 ∧
    (1 ≤ reqByte 0x30 (rq [1]) 1 ∧ reqByte 0x30 (rq [3]) 1 ≤ 3 ∧ reset.mode.op ≠ .setup) ∧
    (withOp .setup reset).Takes (rq [3]) 2 ∧ (withOp .setup reset).mode.op = .setup := by
  unfold State.Takes State.Ready; decide

/-- In the last measurement of a cycle, with E_ref 16 and Q_L 6666. -/
def inRight : State := { reset with draft := { reset.draft with
  pos := .right, counting := true, eRef := some 16, qL := some 6666 } }

/-- Sixteen edges, the last of them at 6720, give Q 6720. -/
theorem sensorCounts_of (d : Draft) (h : d.counting = true ∧ d.eRef = some 16 ∧ d.edgeCount = 0) :
    SensorCounts (.sensorMeasurementEnd (edgesTo 16 6720)) d 6720 :=
  ⟨_, 16, rfl, h.1, h.2.1, ⟨List.replicate 15 1, [], rfl, by decide, by decide, by rw [h.2.2]; rfl⟩, by decide⟩

/-- Fifteen edges within the gate, and one after it. -/
theorem refFails_of (d : Draft) (h : d.gate = 8000 ∧ d.edgeCount = 0) :
    RefFails (.refGateEnd (List.replicate 15 1 ++ [8001])) d d.gate :=
  .inr (.inr ⟨_, 15, rfl, ⟨List.replicate 15 1, [8001], rfl, by rw [h.1]; decide, by rw [h.1]; simp,
    by rw [h.2]; rfl, by decide⟩, by decide, rfl⟩)

theorem cycleEnds_right (s : State)
    (h : s.draft.pos = .right ∧ s.draft.counting = true ∧ s.draft.eRef = some 16 ∧ s.draft.edgeCount = 0) :
    CycleEnds (.sensorMeasurementEnd (edgesTo 16 6720)) s
      { s.draft with qR := some 6720, chR := s.draft.chR.after true } :=
  .inl ⟨6720, sensorCounts_of _ h.2, h.1, rfl⟩

theorem witness_ZeroCaptureAveragesEightResults :
    let s := fun (x : Capture) => ({ inRight with mgmt := { reset.mgmt with capture := some x } } : State)
    let d := { inRight.draft with qR := some 6720, chR := resetChannel.after true }
    (∀ x, (s x).resetting = none ∧ CycleEnds (.sensorMeasurementEnd (edgesTo 16 6720)) (s x) d ∧ (s x).mgmt.capture = some x) ∧
    let counted := fun x : Capture =>
      x.countL + (if (if x.selL = true ∧ x.countL < 8 then d.included .l else none).isSome then 1 else 0)
    d.included .l = some 6666 ∧ d.included .r = some 6720 ∧ counted ⟨true, false, 46662, 0, 7, 0, 8⟩ = 8 ∧
    counted ⟨true, false, 39996, 0, 6, 0, 23⟩ ≠ 8 ∧ counted ⟨true, false, 39996, 0, 6, 0, 8⟩ ≠ 8 := by
  refine ⟨fun x => ⟨rfl, cycleEnds_right _ ⟨rfl, rfl, rfl, rfl⟩, rfl⟩, by decide, by decide, by decide, by decide, by decide⟩

theorem witness_RestartNeedsStandstillAndNeutral :
    ((atStandstill reset).Takes (rq []) 1 ∧ (atStandstill reset).motion.record.standstill = true ∧
      (atStandstill reset).gear.dirState = .n) ∧
    reset.Takes (rq []) 1 ∧ ¬(reset.motion.record.standstill = true ∧ reset.gear.dirState = .n) := by
  unfold State.Takes State.Ready; decide

/-! Transmission, links and causes. -/

def offering (l : Link) (o : Offer) (s : State) : State := s.setLink l { s.link l with offer := some o }

def brakeFrame : Offer := ⟨⟨0x130, [0, 0, 0]⟩, .mailbox .trailerValve, false, false⟩

theorem witness_OfferTakesTheLowestIdentifier :
    (busOff.resetting = none ∧ (busOff.link .v).error = .busOff) ∧
    ((offering .v brakeFrame reset).link .v).offer ≠ none ∧ (∀ src f, ¬ Offered reset .t src f) ∧
    ((ran .brakeStep reset).resetting = none ∧ ((ran .brakeStep reset).link .v).error ≠ .busOff ∧
      ((ran .brakeStep reset).link .v).offer = none ∧
      Offered (ran .brakeStep reset) .v (.mailbox .trailerValve) ⟨0x130, [0, 0, 0]⟩) ∧
    Offered (queued 1) .v .queue ⟨1, []⟩ := by
  refine ⟨by decide, by decide, ?_, ⟨by decide, by decide, by decide, ?_⟩, .inr ⟨rfl, rfl⟩⟩
  · rintro src f (⟨id, data, -, -, h, -⟩ | ⟨-, h⟩)
    · cases id <;> cases h
    · cases h
  · exact .inl ⟨.trailerValve, [0, 0, 0], rfl, rfl, by decide, by decide⟩

theorem witness_TransmittedFrameLeavesItsPlace :
    let s := offering .v brakeFrame reset
    let q := offering .v ⟨⟨1, []⟩, .queue, false, false⟩ (queued 1)
    let d := offering .t ⟨⟨0x7B8, []⟩, .mailbox .reply, false, true⟩ restarting
    (s.Ready ∧ (s.link .v).offer = some brakeFrame ∧ (s.link .v).error ≠ .busOff ∧ MailboxId.trailerValve.link = .v) ∧
    (q.Ready ∧ (q.link .v).offer = some ⟨⟨1, []⟩, .queue, false, false⟩ ∧ (q.link .v).error ≠ .busOff) ∧
    (d.Ready ∧ (d.link .t).offer = some ⟨⟨0x7B8, []⟩, .mailbox .reply, false, true⟩ ∧ (d.link .t).error ≠ .busOff ∧
      MailboxId.reply.link = .t ∧ d.mgmt.restart ≠ none) := by
  unfold State.Ready; decide

theorem witness_FailedTransmissionKeepsItsFrame :
    let s := fun n => offering .v brakeFrame { reset with vLink := { reset.vLink with txCount := n } }
    (s 247).Ready ∧ ((s 247).link .v).offer = some brakeFrame ∧ ((s 247).link .v).error ≠ .busOff ∧
    ¬ 255 < ((s 247).link .v).txCount + 8 ∧ 255 < ((s 248).link .v).txCount + 8 ∧ (s 248).Ready ∧ busOff.Ready ∧
    (busOff.link .v).error = .busOff ∧ reset.Ready ∧ (reset.link .v).error ≠ .busOff := by
  unfold State.Ready; decide

def suspected : State := { driving with vLink := { driving.vLink with silence := .suspect } }

theorem witness_LinkTimersRaiseAndEndTheirFaults :
    let dropped := { reset with vLink := { reset.vLink with dropTimer := some 1000000 } }
    (reset.Ready ∧ (reset.link .t).silence = .ok ∧ (reset.link .t).silenceStart = some 0) ∧
    (suspected.Ready ∧ (suspected.link .v).silence = .suspect ∧ (suspected.link .v).silenceStart = some 0) ∧
    (dropped.Ready ∧ (dropped.link .v).dropTimer = some 1000000) ∧ (reset.link .v).dropTimer = none := by
  unfold State.Ready; decide

def busOffTimed (op : OpState) : State :=
  withOp op { driving with mode := { driving.mode with busOffTimer := some 500000 } }

/-- In RUN with BRAKE_R SUBSTITUTED and BRAKE_L in a slot state. -/
def brakesLost (x : SlotState) : State :=
  (driving.setSlot brakeL ⟨x, 0, some 5⟩).setSlot brakeR ⟨.substituted, 0, none⟩

theorem witness_SafeStopCauseStopsTheDrive :
    (∀ op, (busOffTimed op).Ready ∧ (busOffTimed op).mode.busOffTimer = some 500000 ∧ (busOffTimed op).mode.op = op) ∧
    suspected.Ready ∧ suspected.vLink.silence = .suspect ∧ suspected.vLink.silenceStart = some 0 ∧
    suspected.mode.op = .run ∧
    (∀ x, (brakesLost x).Ready ∧ ((brakesLost x).slot brakeR).state = .substituted ∧
      ((brakesLost x).slot brakeL).state = x ∧ (brakesLost x).mode.op = .run) ∧
    holdMsOf ((withTable .slotTable (List.replicate 16 0) (brakesLost .fresh)).inUse .slotTable) brakeL = 0 ∧
    ({ driving with mode := { driving.mode with stops := 3 } } : State).enterSafeStop.mode.op = .latched := by
  unfold State.Ready
  exact ⟨by intro op; cases op <;> decide, by decide, by decide, by decide, by decide, by intro x; cases x <;> decide,
    by decide, by decide⟩

/-! Slots, motion and selector timers. -/

/-- A Slot Table that gives no hold time. -/
def noHold : State := withTable .slotTable (List.replicate 16 0) reset

theorem witness_SlotTimersHoldThenSubstitute :
    let hold := fun (s : State) => holdMsOf (s.inUse .slotTable) 2 * Config.msTicks
    let held := reset.setSlot 2 ⟨.held, 1200, some 340000⟩
    (reset.resetting = none ∧ ((withSlot 2 5 reset).slot 2).state = .fresh ∧ 0 < hold (withSlot 2 5 reset)) ∧
    (((withSlot 2 5 noHold).slot 2).state = .fresh ∧ hold (withSlot 2 5 noHold) = 0) ∧
    (reset.slot 2).state = .waiting ∧ (held.slot 2).state = .held ∧ held.resetting = none := by decide

/-- The sources of R24, and the speeds where slip begins. -/
theorem witness_RecomputationFollowsSourceAndSlipRules :
    let wheels := withSlot 2 50 (withSlot 3 49 reset)
    let freed : State := { wheels with fac := { wheels.fac with state := .released } }
    (withSlot 4 20 reset).usable radar = true ∧
    (freed.usable radar = false ∧ freed.fac.state = .released ∧ freed.usable wheelFront = true) ∧
    (wheels.fac.state ≠ .released ∧ wheels.usable wheelFront = true ∧ wheels.usable wheelRear = true) ∧
    ((withSlot 2 49 reset).usable wheelFront = false ∧ (withSlot 2 49 reset).usable wheelRear = true) ∧
    reset.usable wheelRear = false ∧ reset.motion.record.coupled = false ∧ (coupled reset).motion.record.coupled = true := by
  decide

def timed (op : OpState) : State := withOp op { reset with motion := { reset.motion with timer := some 500000 } }

theorem witness_StandstillIsTimedAndEndsSafeStop :
    let holds := fun (s : State) => s.motion.record.vg < 20 ∧ s.motion.record.vw < 20 ∧ s.shown outSpeed < 10 ∧
      s.motion.record.source ≠ .none
    let still := fun (v : Int) (timer : Timer) => ({ reset with motion :=
      ⟨{ reset.motion.record with vg := v, vw := v, source := .radar }, timer⟩ } : State)
    (holds (still 19 (some 5)) ∧ (still 19 (some 5)).motion.timer ≠ none) ∧
    (holds (still 19 none) ∧ (still 19 none).motion.timer = none ∧ (still 19 none).motion.record.standstill = false) ∧
    ¬ holds (still 20 none) ∧
    ((timed .setup).Ready ∧ (timed .setup).motion.timer = some 500000 ∧ (timed .setup).motion.record.standstill = false ∧
      (timed .setup).mode.op = .setup ∧ (timed .setup).fac.state = .engaged) ∧
    ((timed .safeStop).Ready ∧ (timed .safeStop).mode.op = .safeStop ∧ (timed .safeStop).intake.record.direction = .n ∧
      (timed .safeStop).fac.state = .engaged ∧ ¬ SafeStopCause (timed .safeStop) ∧ ¬ DegradedCause (timed .safeStop)) ∧
    reset.motion.timer = none ∧ reset.resetting = none := by
  unfold State.Ready SafeStopCause DegradedCause; decide

theorem witness_SelectorTimersPass :
    let s := { driving with gear := { driving.gear with
      shuttle := some ⟨.r, 0, some 5⟩, flag := .pending, holdOff := some 7, deferral := .running (some 9) } }
    s.resetting = none ∧ s.gear.shuttle = some ⟨.r, 0, some 5⟩ ∧ s.gear.holdOff = some 7 ∧
    s.gear.deferral = .running (some 9) ∧ driving.gear.shuttle = none ∧ driving.gear.holdOff = none ∧
    driving.gear.deferral = .stopped := by decide

/-! Shift Engine, Fill Arbiter and front axle. -/

theorem witness_IdleClutchStepHoldsTheGear : driving.Ready ∧ driving.shift.order = none := by
  unfold State.Ready; decide

theorem witness_FillWaitTimeoutWithdrawsTheOrder :
    let o := { swap with phase := .waitSupply, count := 9 }
    let s := withSwap .waitSupply 9 driving
    s.Ready ∧ s.shift.order = some o ∧ o.phase = .waitSupply ∧ o.dumping = none ∧ o.kind ≠ .release ∧ o.ending = false ∧
    s.arbiter.facWait = false ∧ s.clutchHdr.fillWaitMs / 10 = o.count + 1 ∧ o.kind.isSwap = true ∧
    (withOp .degraded s).Ready ∧ (withOp .degraded s).mode.op ≠ .run ∧ (withOp .degraded s).mode.op ≠ .setup ∧
    s.gear.clearAtEnd = false ∧ s.gear.dirState ≠ .n ∧ s.mode.op = .run ∧ s.intake.record.direction = s.gear.dirState ∧
    (requesting .n s).intake.record.direction = .n ∧ (withOp .degraded s).motion.record.coupled = false ∧
    ({ o with kind := .engage } : Order).kind.isSwap = false ∧ (ran .fillWaitTimeout s).shift.order = none ∧
    (ran .fillWaitTimeout (requesting .n s)).shift.order ≠ none := by
  unfold State.Ready; decide

theorem witness_SyncTimeoutForcesLock :
    let o := { swap with phase := .sync, count := 9 }
    let s := withSlot 1 26 (withSwap .sync 9 driving)
    s.Ready ∧ s.shift.order = some o ∧ o.phase = .sync ∧ o.kind.isSwap = true ∧ o.merged = none ∧ o.partEnd = none ∧
    o.freed = false ∧ s.shown clutchPedal < 500 ∧
    s.clutchHdr.syncWindow < (s.shown outSpeed - (s.shown engSpeed * o.ratioTo).tdiv 4096).natAbs ∧
    s.clutchHdr.syncMaxMs / 10 = o.count + 1 := by
  unfold State.Ready; decide

theorem witness_GrantDecisionServesTheShiftFirst :
    let waits := fun (n : Option Nat) (fac : Bool) (st : FacState) => withSlot 14 1000 (withSwap .waitSupply 1
      { driving with arbiter := { driving.arbiter with shiftWait := n, facWait := fac }, fac := { driving.fac with state := st } })
    let supply := fun (s : State) => (s.clutchHdr.supplyMin : Int) ≤ s.shown supplyPress
    let both := waits (some 1) true .releaseWait
    let fac := waits none true .releaseWait
    ¬ supply (withSlot 14 999 both) ∧
    (waits (some 3) false .engaged).arbiter.shiftWait = some 3 ∧ (waits (some 3) false .engaged).arbiter.count .free < 3 ∧
    (supply both ∧ both.arbiter.shiftWait = some 1 ∧ 1 < both.arbiter.count .free ∧ both.arbiter.facWait = true ∧
      both.fac.state = .releaseWait ∧ both.shift.order = some { swap with phase := .waitSupply, count := 1 }) ∧
    (waits (some 2) true .releaseWait).arbiter.count .free = 2 ∧
    (supply fac ∧ fac.arbiter.shiftWait = none ∧ fac.arbiter.facWait = true ∧ fac.fac.state = .releaseWait ∧
      1 ≤ fac.arbiter.count .free) ∧
    (driving.arbiter.shiftWait = none ∧ driving.arbiter.facWait = false) := by decide

/-- In RUN with 4WD off and a release fill under way. -/
def filling : State := { driving with
  fac := ⟨.releaseFill, 1800, 300, some 60, some 80, some 90, none, none, false⟩
  arbiter := ⟨.fac, .free, none, false⟩
  intake := { driving.intake with record := { driving.intake.record with driveMode := .off } } }

theorem filling_ok : filling.Ok :=
  { tables := by intro id; cases id <;> decide
    faults := ⟨by decide, List.Pairwise.nil, by decide, by decide⟩
    tLink := ⟨by decide, by decide, by decide, by decide⟩
    vLink := ⟨by decide, by decide, by decide, by decide⟩
    record := ⟨by decide, by decide, by decide, by decide⟩
    motion := ⟨⟨by decide, by decide⟩, ⟨by decide, by decide⟩, by decide⟩
    draft := ⟨⟨by decide, by decide⟩, ⟨by decide, by decide⟩, ⟨by decide, by decide⟩⟩
    mode := ⟨by decide, by decide⟩
    supervisor := ⟨by decide, by decide⟩
    gear := by unfold Gear.Ok; decide
    hitch := ⟨by decide, by decide, by decide⟩
    memory := by decide
    fac := ⟨by decide, by decide⟩
    fill := ⟨by decide, by decide⟩ }

theorem witness_ReleaseFillEndsReleased :
    filling.Ready ∧ filling.Ok ∧ filling.fac.pulseTimer = some 60 ∧ filling.fac.fillTimer = some 80 ∧
    filling.fac.dwell ≠ none ∧ filling.mode.op = .run ∧ filling.motion.record.coupled = false ∧
    filling.intake.record.driveMode ≠ .on ∧ waitingEmission.Ready ∧ waitingEmission.Ok ∧
    waitingEmission.fac.pulseTimer = none ∧ waitingEmission.fac.fillTimer = none := by
  refine ⟨by unfold State.Ready; decide, filling_ok, by decide, by decide, by decide, by decide, by decide, by decide,
    by unfold State.Ready; decide, witness_EveryStepKeepsTheInvariant.1, by decide, by decide⟩

/-- In RUN with 4WD AUTO, at a ground speed and a steering angle, the front axle in a state with no timer running. -/
def inAuto (v angle : Int) (st : FacState) : State :=
  withSlot steer angle (atSpeed v { driving with
    fac := ⟨st, 0, 0, none, none, none, none, none, false⟩
    intake := { driving.intake with record := { driving.intake.record with driveMode := .auto } } })

theorem releaseDemand_auto {s : State} (auto : s.intake.record.driveMode = .auto) :
    s.ReleaseDemand ↔ (let m := s.motion.record
      let slipping := m.slipValid = true ∧ (s.axle.slip4wd : Int) < m.slipF ∧ m.vg < s.axle.vOff
      s.hitch.override = true ∨ (s.axle.vOff : Int) < m.vg ∨ ¬ slipping ∧ s.axle.aSteer ≤ (s.shown steer).natAbs) := by
  unfold State.ReleaseDemand; rw [auto]

theorem engageDemand_auto {s : State} (auto : s.intake.record.driveMode = .auto) :
    s.EngageDemand ↔ (let m := s.motion.record
      let slipping := m.slipValid = true ∧ (s.axle.slip4wd : Int) < m.slipF ∧ m.vg < s.axle.vOff
      s.hitch.override = false ∧ m.vg ≤ s.axle.vOff ∧
        (slipping ∨ (s.shown steer).natAbs < s.axle.aSteer ∧ m.vg < s.axle.vOn)) := by
  unfold State.EngageDemand; rw [auto]

theorem witness_FrontAxleTimersBringAnEvaluation :
    let off := fun (st : FacState) (dwell hold check : Timer) => ({ filling with
      fac := ⟨st, 0, 0, none, none, dwell, hold, check, false⟩, arbiter := driving.arbiter } : State)
    let forced := fun (s : State) =>
      s.motion.record.coupled = true ∨ s.mode.op ≠ .run ∨ s.intake.record.driveMode = .on
    (forced reset ∧ reset.Ready ∧ reset.fac.state = .engaged) ∧
    (forced (withOp .setup (off .released (some 5) none none)) ∧ (off .released (some 5) none none).fac.dwell = some 5) ∧
    (¬ forced (off .engaged (some 5) none none) ∧ (off .engaged (some 5) none none).Ready ∧
      (off .engaged (some 5) none none).intake.record.driveMode = .off ∧ (off .engaged (some 5) none none).fac.brakeHold = none) ∧
    (off .engaged none (some 5) none).fac.brakeHold = some 5 ∧ (off .engaged none (some 5) none).fac.dwell = none ∧
    (off .engaged (some 5) (some 6) none).fac.brakeHold ≠ none ∧
    (off .released none none (some 9)).fac.check = some 9 ∧ reset.fac.check = none ∧
    (∀ v angle st, ¬ forced (inAuto v angle st) ∧ (inAuto v angle st).fac.state = st) := by
  unfold State.Ready
  refine ⟨by decide, by decide, by decide, by decide, by decide, by decide, by decide, by decide, fun v angle st => ⟨?_, rfl⟩⟩
  show ¬(driving.motion.record.coupled = true ∨ driving.mode.op ≠ .run ∨ DriveMode.auto = .on)
  decide

/-- The demands of R99 at their boundaries: OFF, and AUTO at a speed and a steering angle. -/
theorem witness_FrontAxleDemands :
    filling.ReleaseDemand ∧ (inAuto 1601 0 .engaged).ReleaseDemand ∧ (inAuto 0 250 .engaged).ReleaseDemand ∧
    (inAuto 1399 249 .released).EngageDemand ∧ (inAuto 1399 249 .engaged).EngageDemand ∧
    ¬(inAuto 1400 249 .released).EngageDemand ∧ ¬(inAuto 1400 249 .released).ReleaseDemand := by
  exact ⟨trivial, (releaseDemand_auto rfl).2 (by decide), (releaseDemand_auto rfl).2 (by decide),
    (engageDemand_auto rfl).2 (by decide), (engageDemand_auto rfl).2 (by decide),
    fun h => absurd ((engageDemand_auto rfl).1 h) (by decide), fun h => absurd ((releaseDemand_auto rfl).1 h) (by decide)⟩

/-! Draft capture. -/

theorem witness_RefMeasurementGivesEdgesOrFails :
    let p := fun (p : CapturePos) => ({ reset with draft := { reset.draft with pos := p } } : State)
    reset.resetting = none ∧ (p .left).draft.pos = .left ∧ (p .right).draft.pos = .right ∧ reset.draft.pos = .refLeft ∧
    (p .refRight).draft.pos = .refRight ∧
    reset.draft.CountsWithin (List.replicate 16 1 ++ [8001]) reset.draft.gate 4095 16 ∧
    RefFails (.refGateEnd (List.replicate 15 1 ++ [8001])) reset.draft 8000 ∧
    RefFails (.refGateEnd (List.replicate 4095 8000)) reset.draft 8000 ∧ RefFails .refOverrange reset.draft 0 := by
  refine ⟨by decide, by decide, by decide, by decide, by decide, ?_, refFails_of _ ⟨rfl, rfl⟩, ?_, ?_⟩
  · exact ⟨List.replicate 16 1, [8001], rfl, by decide, by decide, by decide, by decide⟩
  · refine .inr (.inl ⟨_, rfl, List.replicate 4094 8000, [], List.replicate_succ', ?_, by decide, ?_⟩)
    · intro y h; exact Nat.le_of_eq (List.eq_of_mem_replicate h)
    · rw [List.length_replicate]; decide
  · exact .inl ⟨rfl, by decide, by decide, by decide⟩

theorem witness_SensorMeasurementCountsOrStalls :
    let p := fun (p : CapturePos) (c : Bool) => ({ reset with draft := { reset.draft with pos := p, counting := c } } : State)
    reset.resetting = none ∧ ((p .left false).draft.pos = .left ∧ (p .left false).draft.counting = false) ∧
    ¬(reset.draft.pos = .left ∨ reset.draft.pos = .right) ∧ (p .left true).draft.counting = true ∧
    SensorCounts (.sensorMeasurementEnd (edgesTo 16 6720)) { (p .left true).draft with eRef := some 16 } 6720 ∧
    SensorStalls (.sensorMeasurementEnd [65535]) { (p .left true).draft with eRef := some 16 } ∧
    SensorStalls .sensorStall (p .left false).draft ∧ resetChannel.failed = false := by
  refine ⟨by decide, by decide, by decide, by decide, sensorCounts_of _ ⟨rfl, rfl, rfl⟩, ?_, .inl rfl, by decide⟩
  exact .inr ⟨_, 16, 1, rfl, rfl, rfl, [65535], [], rfl, by decide, by decide, by decide, by decide⟩

theorem witness_channel_ok : resetChannel.Ok := ⟨by decide, by decide⟩

theorem witness_CycleEndFormsTheDraftRecord :
    reset.resetting = none ∧
    CycleEnds (.sensorMeasurementEnd (edgesTo 16 6720)) inRight
      { inRight.draft with qR := some 6720, chR := inRight.draft.chR.after true } ∧
    CycleEnds .sensorStall inRight
      { inRight.draft with qR := none, chR := inRight.draft.chR.after false } ∧
    (∀ c, c = .refOverrange ∨ c = .refGateEnd (List.replicate 15 1 ++ [8001]) →
      CycleEnds c { reset with draft := { reset.draft with pos := .refRight } } { reset.draft with
        pos := .refRight, qR := none, refFailR := true, chRef := reset.draft.chRef.after false }) := by
  refine ⟨rfl, cycleEnds_right _ ⟨rfl, rfl, rfl, rfl⟩, .inr (.inl ⟨.inl rfl, rfl, rfl⟩), ?_⟩
  rintro c (rfl | rfl)
  · exact .inr (.inr ⟨⟨0, .inl ⟨rfl, by decide, by decide, by decide⟩⟩, rfl, rfl⟩)
  · exact .inr (.inr ⟨⟨_, refFails_of _ ⟨rfl, rfl⟩⟩, rfl, rfl⟩)

/-! Hitch, trailer and emission. -/

def withHitch (st : HitchState) : State := { reset with hitch := { reset.hitch with state := st } }

theorem witness_ControlStepWritesTheLawsCommand :
    ∀ st : HitchState, (withHitch st).resetting = none ∧ (withHitch st).hitch.state = st ∧
      (withHitch st).intake.record.drop ≤ 100 := by
  intro st; cases st <;> decide

theorem witness_TrailerDemandsFollowTheirConditions :
    let c : List (Nat × Nat) := [(0, 0), (500, 1200), (2000, 3500)]
    c.Pairwise (fun v w => v.1 < w.1) ∧ c = [] ++ (0, 0) :: (500, 1200) :: [(2000, 3500)] ∧ 0 ≤ 499 ∧ 499 < 500 ∧
    c = [(0, 0)] ++ (500, 1200) :: (2000, 3500) :: [] ∧ 2000 ≤ 2000 := by decide

theorem witness_BrakeStepLowersTheCommandToDemand :
    let s := reset.setSlot 12 ⟨.waiting, 0, some 100000⟩
    reset.resetting = none ∧ ¬(reset.slot trailerLine).state ≠ .unmapped ∧ (s.slot trailerLine).state ≠ .unmapped ∧
    s.shown trailerLine < ((2000 * 30 / 100 : Nat) : Int) ∧ s.resetting = none := by decide

theorem witness_TrailerTimersPass :
    let s := { reset with trailer := { reset.trailer with tail := some 5, lineCheck := some 6 } }
    s.resetting = none ∧ s.trailer.tail = some 5 ∧ s.trailer.lineCheck = some 6 ∧ reset.trailer.tail = none ∧
    reset.trailer.lineCheck = none := by decide

theorem witness_EmissionWritesTheThreeFrames :
    reset.resetting = none ∧ reset.faults.entries = [] ∧ faulty.resetting = none ∧
    faulty.faults.entries[faulty.faults.position]? = some ⟨.trailerLine, 0, true, 1, 0, none⟩ := by decide

/-! Mode, supervisor and Fault List. -/

theorem witness_RunAndLateTimersPass :
    let s := { driving with mode := { driving.mode with runTimer := some 5 }, supervisor := ⟨false, true, 2, none, some 6, 0⟩ }
    let none' := { driving with supervisor := { driving.supervisor with late := none } }
    s.Ready ∧ s.mode.runTimer = some 5 ∧ s.supervisor.late = some 6 ∧ s.supervisor.tripped = false ∧ s.mode.op = .run ∧
    ¬ SafeStopCause s ∧ driving.mode.runTimer = none ∧ none'.supervisor.late = none ∧ driving.Ready := by
  unfold State.Ready SafeStopCause; decide

theorem witness_AgeTickAgesItsEntry :
    let e : FaultEntry := ⟨.linkFailed, 1, false, 1, 65535, some 7⟩
    let s := { reset with faults := { reset.faults with entries := [e] } }
    s.resetting = none ∧ s.faults.entries = [] ++ e :: [] ∧ e.kind = .linkFailed ∧ e.index = (1 : Fin 16).val ∧
    e.timer = some 7 ∧ (∀ e ∈ s.faults.entries, ¬(e.kind = .linkFailed ∧ e.index = (2 : Fin 16).val)) := by decide

/-- Sixteen entries, of which that of slot `n` is STORED. -/
def fullList (n : Nat) : Faults :=
  ⟨(List.range 16).map fun i => ⟨.signalLost, i, i == n, 1, 0, none⟩, false, 0⟩

theorem fullList_ok (n : Nat) (h : n = 9 ∨ n = 16) : (fullList n).Ok := by
  rcases h with rfl | rfl
  all_goals exact ⟨by decide, by unfold Distinct; decide, by decide, by decide⟩

theorem witness_RaisedFaultFindsItsPlace :
    (fullList 9).Ok ∧ (fullList 16).Ok ∧ reset.faults.entries.length < 16 ∧ reset.faults.entries = [] ∧
    (∀ e ∈ (fullList 9).entries, ¬(e.kind = .trailerLine ∧ e.index = 0)) ∧ (fullList 9).entries.length = 16 ∧
    (fullList 9).entries = (fullList 9).entries.take 9 ++ ⟨.signalLost, 9, true, 1, 0, none⟩ :: (fullList 9).entries.drop 10 ∧
    (∀ a ∈ (fullList 9).entries.take 9, a.stored = false) ∧ (fullList 16).entries.length = 16 ∧
    (∀ e ∈ (fullList 16).entries, e.stored = false) ∧
    (∀ e ∈ (fullList 16).entries, ¬(e.kind = .trailerLine ∧ e.index = 0)) :=
  ⟨fullList_ok 9 (.inl rfl), fullList_ok 16 (.inr rfl), by decide, by decide, by decide, by decide, by decide, by decide,
    by decide, by decide, by decide⟩

/-! ### For each law that is a part of a statement, states and operands that meet its hypotheses -/

/-! The hand-on of an operator command, the Gear Selector and its target. -/

theorem witness_HandOnLaw :
    let changed : OperatorNews := ⟨true, true, true, true, true, 1, 0, .out, .raise⟩
    changed.direction = true ∧ reset.intake.record.lastUp = none ∧
    (reset.intake.record.after [0x3C, 0x21]).lastUp = some 1 := by decide

theorem witness_MotionUpdateLaw :
    let s := atStandstill (withOp .safeStop reset)
    s.mode.op = .safeStop ∧ s.motion.record.standstill = true ∧ s.intake.record.direction = .n ∧ ¬ SafeStopCause s ∧
    s.takeNotice .exit = s.setOp .run ∧ reset.mode.op ≠ .safeStop := by
  unfold SafeStopCause; decide

/-! Events in any order (R94). -/

/-- Where one order leads: each number says which of the events that can be taken next is taken. -/
def along : List Nat → State → State
  | [], s => s
  | k :: ks, s => match s.nexts[k]? with
    | some u => along ks u
    | none => s

/-- An order that leaves no event is one of those that settling takes. -/
theorem ordered_along {ks : List Nat} {s : State} {fuel : Nat} (h : (along ks s).notices = []) (le : ks.length ≤ fuel) :
    Ordered fuel s (along ks s) := by
  induction ks generalizing s fuel with
  | nil => exact .done h
  | cons k ks ih =>
    cases fuel with
    | zero => exact absurd le (Nat.not_succ_le_zero _)
    | succ fuel =>
      unfold along at h ⊢
      split at h
      · rename_i u e
        exact Ordered.succ_iff.2 ⟨u, List.mem_of_getElem? e, ih h (Nat.le_of_succ_le_succ le)⟩
      · exact .done h

/-- In RUN and 4WD AUTO in F2 with the supply restored, the hitch in CONTROL, and a target. -/
def inF2 (target : Nat) (v : Int) (st : FacState) : State :=
  let s := withSlot supplyPress 1250 (inAuto v 0 st)
  { s with
    gear := { s.gear with current := some 1, ownTarget := some target }
    hitch := { s.hitch with state := .control } }

/-- What two orders that leave no event make of the arbiter: a SWAP2 has both slots and the front axle waits, or the front
axle has its slot and the SWAP2 waits. -/
def bothGrants (first second : List Nat) (s : State) : Prop :=
  (along first s).notices = [] ∧ (along first s).arbiter = ⟨.shift, .shift, none, true⟩ ∧
  (along second s).notices = [] ∧ (along second s).arbiter = ⟨.fac, .free, some 2, false⟩

/-- A supply update beside the shift request of its frame's motion update, with the front axle waiting. -/
theorem test_supply_and_motion_in_any_order :
    let s := withSlot radar 2000 { inF2 4 2000 .releaseWait with arbiter := ⟨.free, .free, none, true⟩ }
    bothGrants [0, 1, 0, 0, 0] [1, 1, 0, 0, 0, 0]
      ((withSlot outSpeed 500 (atStandstill s)).announceSlots ⟨[outSpeed, supplyPress], [], []⟩) := by
  unfold bothGrants; decide

/-- The shift request of a press beside the release that the OUT of the same frame asks for (R139). -/
theorem test_press_and_headland_out_in_any_order :
    bothGrants [0, 0, 0, 0, 0, 0] [1, 1, 0, 0, 0, 0, 0, 0]
      ((inF2 1 0 .engaged).handOn ⟨false, false, false, false, false, 1, 0, .out, .none⟩) := by
  unfold bothGrants; decide

/-- A SWAP2 that waits for its slots, while the front axle's release fill holds one. -/
def waitingSwap (fromGear toGear : Nat) (s : State) : State :=
  { s with
    arbiter := ⟨.fac, .free, some 2, false⟩
    gear := { s.gear with current := some fromGear, ownTarget := some toGear }
    shift := { s.shift with
      order := some { newOrder testGears .swap2 (some fromGear) (some toGear) .f .f with phase := .waitSupply } } }

/-- Substitutes that start coupled braking and stop the part: the upward swap that waits is aborted on the start (R82), or
it is merged with the RELEASE of SAFE_STOP first and granted the slots (R48, R80). -/
theorem test_brake_start_and_safe_stop_in_any_order :
    let s := waitingSwap 1 4 (withTable .slotTable (List.replicate 16 (wordOfHalves 1000 0 0)) (inF2 4 2000 .releaseFill))
    let lost := ((s.setSlot brakeL ⟨.substituted, 0, none⟩).setSlot brakeR ⟨.substituted, 0, none⟩).announceSlots
      ⟨[], [brakeL], [brakeL]⟩
    [[0, 0, 0, 0, 0, 0, 0, 0, 0, 0], [0, 0, 1, 1, 1, 0, 0, 0, 0, 0]].map (fun ks =>
        let t := along ks lost; (t.notices.length, t.arbiter.count .shift, t.mode.op)) =
      [(0, 0, .safeStop), (0, 2, .safeStop)] := by decide

/-- A 4WD mode of ON gives a slot to a downward swap that waits, and an up press withdraws that swap: the stretch window
has opened, so that its tail runs, or it has not (R78, R90, R147). -/
def modeAndPress : State :=
  let s := waitingSwap 4 1 (inF2 1 2000 .releaseFill)
  ({ s with intake := { s.intake with record := { s.intake.record with driveMode := .on } } } : State).handOn
    ⟨false, false, true, false, false, 1, 0, .none, .none⟩

theorem test_grant_and_change_of_mind_in_any_order :
    [[0, 0, 0, 0, 0, 0], [1, 0, 0, 0, 0, 0]].map (fun ks =>
        let t := along ks modeAndPress; (t.notices.length, t.trailer.tail, t.arbiter.count .free)) =
      [(0, none, 2), (0, some 300000, 2)] := by decide

/-- A frame with BRAKE_L and STEER that ends coupled braking: the hold runs from the update on, and the evaluation at STEER
between the update and what the update brings does not release the front axle (R102). -/
theorem test_brake_end_holds_the_axle :
    let s := (coupled (inAuto 0 9000 .engaged)).announceSlots ⟨[brakeL, steer], [], []⟩
    (s.nexts.headD s).notices.head? = some .axle ∧ (along [0, 0, 0, 0] s).notices = [] ∧
    (along [0, 0, 0, 0] s).fac = ⟨.engaged, 0, 0, none, none, none, some 2000000, none, false⟩ := by decide

/-- Events that lead to one state, and events that do not. -/
theorem witness_AnyOrder :
    (∀ u v, Ordered Config.settleFuel reset u → Ordered Config.settleFuel reset v → u = v) ∧
    ¬ ∀ u v, Ordered Config.settleFuel modeAndPress u → Ordered Config.settleFuel modeAndPress v → u = v := by
  constructor
  · intro u v hu hv
    rw [(Ordered.nil_iff rfl).1 hu, (Ordered.nil_iff rfl).1 hv]
  · intro h
    have e := h _ _ (ordered_along (ks := [0, 0, 0, 0, 0, 0]) (by decide) (by decide))
      (ordered_along (ks := [1, 0, 0, 0, 0, 0]) (by decide) (by decide))
    exact absurd (congrArg (fun t => t.trailer.tail) e) (by decide)

/-- In N with pre_F F1 and pre_R R1. -/
def neutral (current : Option Nat) : State :=
  { driving with gear := { driving.gear with dirState := .n, current := current } }

theorem witness_SelectorLaw :
    let order := withSwap .overlap 1 driving
    let shuttle : Order := { swap with kind := .shuttle, sub := .dump, origin := .r }
    let dropped := { requesting .r driving with gear := { driving.gear with flag := .dropped } }
    (order.shift.order = some { swap with phase := .overlap, count := 1 } ∧ order.mode.op = .run ∧
      (requesting .n order).intake.record.direction = .n ∧ swap.kind ≠ .shuttle ∧ order.intake.record.direction ≠ .n ∧
      shuttle.sub = .dump ∧ (requesting .r order).intake.record.direction = shuttle.origin.state) ∧
    (driving.shift.order = none ∧ (withOp .degraded driving).mode.op ≠ .run ∧ (withOp .degraded driving).mode.op ≠ .setup ∧
      (withOp .setup driving).gear.dirState ≠ .n ∧ (withOp .setup reset).gear.dirState = .n) ∧
    ((requesting .n driving).intake.record.direction = .n ∧ driving.gear.dirState = Dir.f.state ∧
      (requesting .n (neutral none)).gear.dirState = .n ∧ (neutral (some 0)).gear.preF = (neutral (some 0)).gear.current ∧
      (neutral none).gear.preF ≠ (neutral none).gear.current ∧ (neutral none).intake.record.direction = Dir.f.state ∧
      reset.gear.preF = none) ∧
    (dropped.gear.flag = .dropped ∧ driving.gear.flag ≠ .dropped ∧ driving.gear.preR ≠ none ∧
      driving.motion.record.vg ≤ ((gearHeader driving.gearWords).speedLimit : Int) ∧
      (let limit := ((gearHeader driving.gearWords).speedLimit : Int);
        ¬(atSpeed (limit + 1) driving).motion.record.vg ≤ limit)) := by decide

/-- In RUN and AUTO, F engaged, with a forward gear as current gear and target. -/
def autoIn (gear : Nat) (eng thr : Int) (correcting : Bool) : State :=
  let s := withSlot engSpeed eng (withSlot throttle thr driving)
  { s with
    gear := { s.gear with current := some gear, ownTarget := some gear }
    hitch := { s.hitch with correcting := correcting }
    intake := { s.intake with record := { s.intake.record with shiftMode := .auto } } }

theorem witness_EngagedLaw :
    let tested := fun s : State => s.gear.dirState = .f ∧ s.intake.record.shiftMode = .auto ∧ s.gear.holdOff = none ∧
      s.shift.order = none ∧ s.gear.current = s.gear.target
    let sched := driving.inUse .shiftSchedule
    let at' := fun (p : Nat) (s : State) => (s.ladderOf .f)[p]? = s.gear.current
    (reset.gear.target = none ∧ reset.gear.current = none ∧ driving.gear.target = some 0 ∧ driving.gear.current = some 0) ∧
    (tested (autoIn 2 0 0 false) ∧ 2 ∉ (autoIn 2 0 0 false).ladderOf .f) ∧
    (tested (autoIn 0 2100 150 false) ∧ at' 0 (autoIn 0 2100 150 false) ∧ (scheduleUp sched 0 : Int) = 2100 ∧
      (scheduleHeader sched).minThrottle = 150 ∧ (autoIn 0 2100 150 false).shown engSpeed = 2100 ∧
      (autoIn 0 2100 150 false).shown throttle = 150 ∧ (driving.ladderOf .f)[0 + 1]? = some 1) ∧
    (tested (autoIn 1 1500 0 false) ∧ at' 1 (autoIn 1 1500 0 false) ∧ (scheduleDown sched 1 : Int) = 1500 ∧
      (autoIn 1 1500 0 false).shown engSpeed = 1500 ∧ (driving.ladderOf .f)[1 - 1]? = some 0) ∧
    ((autoIn 1 1500 0 true).hitch.correcting = true ∧ (autoIn 1 1500 0 true).gear.deferral = .stopped ∧
      (scheduleHeader sched).deferMs ≠ 0) ∧
    (tested (autoIn 1 1501 0 false) ∧ (autoIn 1 1501 0 false).shown engSpeed = 1501) := by decide

theorem witness_HandedReleaseLaw :
    (∀ (k : OrderKind) (sub : SubOrder) (p : Phase) (b : Bool) (m : Option Dir),
      ∃ o : Order, o.kind = k ∧ o.sub = sub ∧ o.phase = p ∧ o.ending = b ∧ o.merged = m) ∧
    driving.gear.dirState = Dir.f.state ∧ reset.gear.dirState = .n :=
  ⟨fun k sub p b m => ⟨{ swap with kind := k, sub := sub, phase := p, ending := b, merged := m }, rfl, rfl, rfl, rfl, rfl⟩,
    by decide, by decide⟩

theorem witness_TargetLaw :
    let swapping := fun p : Phase => ({ withSwap p 1 driving with gear := { driving.gear with ownTarget := some 1 } } : State)
    let held := coupled { driving with gear := { driving.gear with ownTarget := some 4 } }
    let l := driving.targetLadder
    (driving.gear.target = some 0 ∧ driving.shift.order = none) ∧
    (∀ p, (swapping p).gear.target ≠ some 0 ∧ (swapping p).shift.order = some { swap with phase := p, count := 1 }) ∧
    (swap.kind = .swap1 ∧ swap.merged = none ∧ swap.fromGear = some 0) ∧
    (driving.mode.op = .run ∧ l[0]? = some 0 ∧ l[min (0 + (1 - 0)) (l.length - 1)]? = some 1 ∧
      l[2 - (1 - 0)]? = some 1 ∧ held.gear.target = some 4 ∧ l[2]? = some 4) ∧
    (held.motion.record.coupled = true ∧ held.referenceGear = some 0 ∧ driving.motion.record.coupled = false) ∧
    (reset.mode.op ≠ .run ∧ driving.gear.dirState ≠ .n ∧ l[0 - (gearHeader driving.gearWords).kHl]? = some 0 ∧ 2 ∉ l ∧
      reset.gear.dirState = .n ∧ driving.gear.dirState ≠ .r) := by
  refine ⟨by decide, ?_, by decide, by decide, by decide, by decide⟩
  intro p; cases p <;> decide

/-! The hitch and the headland. -/

/-- In RUN with the hitch in a state and HITCH_POS valid. -/
def hitchAt (st : HitchState) (pos : Int) : State := withSlot hitchPos pos (withOp .run (withHitch st))

def transporting (s : State) : State :=
  { s with intake := { s.intake with record := { s.intake.record with transport := true } } }

theorem witness_ButtonLaw :
    reset.mode.op ≠ .run ∧ (∀ st, (hitchAt st 0).mode.op = .run ∧ (hitchAt st 0).hitch.state = st) ∧
    (reset.hitchT.lowerInhibit : Int) < (atSpeed 2001 (hitchAt .hold 0)).motion.record.vg ∧
    ¬(reset.hitchT.lowerInhibit : Int) < (atSpeed 2000 (hitchAt .hold 0)).motion.record.vg := by
  refine ⟨by decide, ?_, by decide, by decide⟩
  intro st; cases st <;> decide

theorem witness_HitchPosLaw :
    (∀ st ∈ [HitchState.hold, .raising, .control, .lowering],
      (transporting (hitchAt st 930)).hitch.state = st ∧ (transporting (hitchAt st 930)).holding = .transport) ∧
    (hitchAt .startupLock 20).matched = .control ∧ (hitchAt .startupLock 21).matched = .startupLock ∧
    (transporting (hitchAt .hold 929)).holding = .hold ∧ (hitchAt .raising 930).holding = .hold ∧
    ((hitchAt .raising 949).usable hitchPos = true ∧ (hitchAt .raising 949).shown hitchPos < (reset.hitchT.upper : Int)) ∧
    ¬(hitchAt .raising 950).shown hitchPos < (reset.hitchT.upper : Int) ∧
    (withHitch .control).usable hitchPos = false := by decide

theorem witness_HitchLevelLaw :
    ((hitchAt .startupLock 20).hitch.state = .startupLock ∧ (hitchAt .startupLock 20).matched = .control) ∧
    (hitchAt .startupLock 21).matched ≠ .control ∧ reset.mode.op ≠ .run ∧
    ((transporting (hitchAt .raising 930)).mode.op = .run ∧ (transporting (hitchAt .raising 930)).intake.record.transport = true ∧
      (transporting (hitchAt .raising 930)).hitch.state = .raising ∧
      (transporting (hitchAt .raising 930)).holding = .transport) ∧
    (transporting (hitchAt .startupLock 930)).hitch.state = .startupLock ∧
    ((hitchAt .transport 930).intake.record.transport = false ∧ (hitchAt .transport 930).hitch.state = .transport ∧
      (hitchAt .hold 930).hitch.state ≠ .transport) := by decide

theorem witness_HeadlandLaw :
    let out := fun st : HitchState => ({ hitchAt st 0 with hitch := { (hitchAt st 0).hitch with
      memory := some ⟨20, false, none, .n⟩, override := true } } : State)
    (reset.mode.op ≠ .run ∧ (hitchAt .control 0).mode.op = .run ∧ (hitchAt .control 0).hitch.state = .control ∧
      (hitchAt .lowering 0).hitch.state = .lowering ∧ (hitchAt .control 0).hitch.memory = none) ∧
    ((out .hold).hitch.memory = some ⟨20, false, none, .n⟩ ∧ (out .hold).hitch.state ≠ .transport ∧
      (out .hold).motion.record.vg ≤ (reset.hitchT.lowerInhibit : Int) ∧ (out .hold).usable hitchPos = true ∧
      (((out .hold).intake.record.dial : Int) - 20).natAbs ≤ 20) ∧
    (out .transport).hitch.state = .transport ∧
    (reset.hitchT.lowerInhibit : Int) < (atSpeed 2001 (out .hold)).motion.record.vg := by decide

/-! The clutch step of an order, its end, and the checks of a commit. -/

/-- What a step does to the swap in a phase: the phase it ran, how it ended, and whether the order ends. -/
def stepped (p : Phase) (count : Nat) (s : State) (f : Order → Order) : Phase × StepEnd × Option OrderResult :=
  let r := s.stepOrder (f { swap with phase := p, count := count })
  (r.1.phase, r.2, r.1.endsWith r.2)

theorem witness_OrderStepLaw :
    let pedal := withSlot clutchPedal 500 driving
    (∀ p, (stepped p 0 driving id).1 = p) ∧
    stepped .overlap 1 pedal id = (.lock, .part .free, some .free) ∧ stepped .fill 1 pedal id = (.fill, .goesOn, none) ∧
    stepped .waitSupply 9 driving id = (.waitSupply, .part .refusedSupply, some .refusedSupply) ∧
    stepped .prepare 0 driving id = (.prepare, .phase .fill, none) ∧
    stepped .fill 0 driving id = (.fill, .goesOn, none) ∧ stepped .fill 19 driving id = (.fill, .phase .overlap, none) ∧
    stepped .sync 9 (withSlot 1 26 driving) id = (.sync, .phase .lock, none) ∧
    stepped .lock 0 driving (fun o => { o with forced := true }) = (.lock, .part .forcedLock, some .forcedLock) ∧
    stepped .ramp 0 driving (fun o => { o with kind := .engage }) = (.ramp, .goesOn, none) := by
  refine ⟨fun p => ?_, by decide, by decide, by decide, by decide, by decide, by decide, by decide, by decide, by decide⟩
  cases p <;> decide

theorem witness_OrderEndsLaw :
    (∀ (k : OrderKind) (sub : SubOrder) (b : Bool) (x : Option Nat), ∃ o : Order,
      o.kind = k ∧ o.sub = sub ∧ o.ending = b ∧ o.dump = x) ∧ ¬ swap.Dumps (some .f) ∧ swap.Dumps none ∧
    ({ swap with merged := some .f } : Order).Dumps (some .f) := by
  refine ⟨fun k sub b x => ⟨{ swap with kind := k, sub := sub, ending := b, dump := x }, rfl, rfl, rfl, rfl⟩, ?_⟩
  refine ⟨fun h => ?_, (rfl : none = swap.merged), rfl⟩
  have h' : some Dir.f = swap.merged := h
  cases h'

theorem witness_ClutchStepLaw :
    let s := fun (p : Phase) => withSwap p 0 driving
    let shuttle := fun (x : Option Nat) (o : Order) => { o with kind := .shuttle, sub := .dump, dump := x }
    let engage := fun o : Order => { o with kind := .shuttle, sub := .free, phase := .lock }
    (∀ p, (s p).Ready ∧ (s p).shift.order = some { swap with phase := p, count := 0 } ∧ (s p).arbiter.facWait = false) ∧
    stepped .dump 1 driving (shuttle (some 500)) = (.dump, .goesOn, none) ∧
    stepped .dump 1 driving (shuttle (some 0)) = (.dump, .goesOn, none) ∧
    stepped .lock 0 driving engage = (.lock, .part .completed, none) ∧
    stepped .lock 0 driving (fun o => { o with merged := some .f, dump := some 500 }) = (.lock, .part .completed, none) ∧
    (stepped .lock 0 driving id = (.lock, .part .completed, some .completed) ∧
      (({ s .lock with shift := { (s .lock).shift with order := some { swap with phase := .lock, throttleHeld := true } } } :
        State).tables.clutch.state = .committed ∧ testClutches.length = 21 ∧ (swap.oncoming.map (·.clutch)).Nodup)) := by
  refine ⟨fun p => ?_, by decide, by decide, by decide, by decide, by decide⟩
  unfold State.Ready; cases p <;> decide

theorem witness_EndReportLaw :
    (∀ (k : OrderKind) (m : Option Dir), ∃ o : Order, o.kind = k ∧ o.merged = m) ∧ driving.gear.clearAtEnd = false ∧
    ({ driving.gear with clearAtEnd := true } : Gear).clearAtEnd = true :=
  ⟨fun k m => ⟨{ swap with kind := k, merged := m }, rfl, rfl⟩, by decide, rfl⟩

/-- A check that fails, first and behind one that does not, and a table whose checks all pass. -/
theorem witness_FirstFailure :
    let bad := fun ws : List TWord => (axleTable ws).vOn = (axleTable ws).vOff
    (bad (resetAxle.set 0 (wordOfHalves 1600 1600 250)) ∧ 0 < 1) ∧ ¬ bad resetAxle ∧
    MapEntryBad (resetIntakeMap.set 4 (wordOf 1 6 0x88 0x01 0 3)) 1 := by
  refine ⟨by decide, by decide, ?_⟩
  exact ⟨by decide, .inr (.inr (.inr (.inr (.inl (by decide)))))⟩

end Sys2Proof.Tests
end

/-! ### ENTER_SETUP: a request frame of the T-link that reaches its rule (R181), and the answer of the Mode Controller in
each operating state (R168) -/

namespace Sys2Proof.Machine

section

variable {s t u : State} {time : Time} {r : ReqFrame} {m : Nat} {code : Byte}

/-! ### A counted frame of the T-link (R156, R160) -/

/-- What a data frame of the T-link finds: the time base at its arrival, and the frame counted. -/
def State.counted (s : State) (time : Time) : State := (s.atTime time).countFrame .t

theorem State.counted_heard (h : s.resetting = none) : HeardOnT s (s.counted time) time :=
  ⟨rfl, rfl, rfl, rfl, rfl, h⟩

/-- A mark on the offer of the T-link does not touch what the counted frame has changed. -/
theorem HeardOnT.offered (h : HeardOnT s u time) (now : t.now = u.now) (resetting : t.resetting = u.resetting)
    (link : t.tLink = { u.tLink with offer := t.tLink.offer }) : HeardOnT s t time where
  now := now.trans h.now
  rxCount := by rw [link]; exact h.rxCount
  txCount := by rw [link]; exact h.txCount
  silence := by rw [link]; exact h.silence
  silenceStart := by rw [link, now]; exact h.silenceStart
  resetting := resetting.trans h.resetting

theorem HeardOnT.acts (h : HeardOnT s u time) (k : Acts u t) : HeardOnT s t time :=
  h.offered k.now k.resetting k.tLink

theorem HeardOnT.replied (h : HeardOnT s u time) (c : Nat) (res : Result) (data : List Byte) :
    HeardOnT s (u.reply c res data) time := h.offered rfl rfl rfl

/-! ### A request that reaches case 5 of R181 -/

theorem minimumDlc_bounds {c : Nat} (h : minimumDlc c = some m) : 1 ≤ m ∧ m ≤ 8 := by
  unfold minimumDlc at h
  split at h
  all_goals cases h
  all_goals decide

theorem rxData_length (d : Fin 16) (c : Byte) (bs : List Byte) : (rxData d (c :: bs)).length = min 8 d.val := by
  simp only [rxData, List.length_take, List.length_append, List.length_cons, List.length_replicate]
  omega

theorem rxData_code {d : Fin 16} (h : 1 ≤ d.val) (c : Byte) (bs : List Byte) :
    dataAt (rxData d (c :: bs)) 0 = c.toNat := by
  obtain ⟨n, hn⟩ : ∃ n, min 8 d.val = n + 1 := ⟨min 8 d.val - 1, by omega⟩
  simp only [dataAt, rxData, hn, List.cons_append, List.take_succ_cons, List.getD_cons_zero]

/-- The frame is handed to the rule of its request. -/
theorem State.takeRequest_handled {data : List Byte} (long : minimumDlc (dataAt data 0) = some m) (len : m ≤ data.length)
    (capture : s.mgmt.capture = none) (restart : s.mgmt.restart = none) : s.takeRequest data = s.handleRequest data := by
  have pos := (minimumDlc_bounds long).1
  have nonempty : data ≠ [] := fun e => by rw [e, List.length_nil] at len; omega
  have enough : tooShort data = false := by
    unfold tooShort
    rw [long]
    exact decide_eq_false (Nat.not_lt.2 len)
  simp only [State.takeRequest, if_neg nonempty, enough, capture, restart, running, Option.isSome_none, Bool.false_eq_true,
    false_and, if_false]

theorem State.takeFrame_management (s : State) (early : Bool) (data : List Byte) :
    s.takeFrame .t early ⟨0x7B0, data⟩ = s.takeRequest data := by
  have management : classify (s.mapFor early) .t ⟨0x7B0, data⟩ = .management := if_pos ⟨rfl, rfl⟩
  simp only [State.takeFrame, management]

theorem State.receiveRequest_handled (h : s.Takes r m) (least : minimumDlc code.toNat = some m) :
    s.receiveRequest time code r =
      ((s.counted time).handleRequest (rxData r.dlcCode (code :: r.rest))).settled := by
  obtain ⟨⟨reset, -⟩, hears, capture, restart, dlc⟩ := h
  obtain ⟨low, high⟩ := minimumDlc_bounds least
  have first : dataAt (rxData r.dlcCode (code :: r.rest)) 0 = code.toNat := rxData_code (Nat.le_trans low dlc) _ _
  have len : m ≤ (rxData r.dlcCode (code :: r.rest)).length := by rw [rxData_length]; omega
  have on : s.hears .t = true := bne_iff_ne.2 hears
  have taken : (s.counted time).takeRequest _ = _ := State.takeRequest_handled (by rw [first, least]) len capture restart
  unfold State.receiveRequest State.receive
  rw [State.unlessReset_on reset, if_pos on, State.takeFrame_management]
  exact congrArg State.settled taken

/-- What an accepted request answers and leaves alone stays through the reactions that follow. -/
theorem AnsweredToo.acts {c : Nat} {data : List Byte} (h : AnsweredToo s u time c data) (k : Acts u t) :
    AnsweredToo s t time c data where
  heard := h.heard.acts k
  record := by rw [k.intake, h.record]
  draft := by rw [k.draft]; exact h.draft
  supervisor := k.supervisor.trans h.supervisor
  vLink := k.vLink.trans h.vLink
  emission := k.emission.trans h.emission
  reply := by unfold State.Replied; rw [k.mail]; exact h.reply

/-- A reply alone: nothing is announced, and nothing else changes. -/
theorem State.counted_reply (h : s.Ready) (c : Nat) (res : Result) (data : List Byte) :
    AnsweredOnly s ((s.counted time).reply c res data).settled time c res data ∧
      ((s.counted time).reply c res data).settled.mgmt = s.mgmt := by
  obtain ⟨reset, waiting⟩ := h
  have quiet : ((s.counted time).reply c res data).notices = [] := waiting
  rw [State.settled_nil quiet]
  exact ⟨{
    heard := (State.counted_heard reset).replied c res data
    same := ⟨rfl, rfl, rfl, rfl, rfl, rfl, rfl, rfl, rfl, rfl, rfl, rfl, rfl, rfl, rfl, rfl⟩
    tables := rfl, faults := rfl, reply := rfl }, rfl⟩

/-- Reactions to a counted frame and a DONE reply, before the events that the reactions bring are taken. -/
theorem Reacts.answered (change : Reacts (s.counted time) u) (reset : s.resetting = none) (c : Nat) (data : List Byte) :
    AnsweredToo s (u.reply c .done data) time c data where
  heard := ((State.counted_heard reset).offered change.now change.resetting change.tLink).replied c .done data
  record := congrArg Intake.record change.intake
  draft := by
    have draft : (u.reply c .done data).draft = s.draft.count (time - s.now) := change.draft
    rw [draft]
    rfl
  supervisor := change.supervisor
  vLink := change.vLink
  emission := change.emission
  reply := rfl

/-! ### The Mode Controller's outcome (R168) -/

theorem State.stationary_iff :
    s.stationary = true ↔ s.motion.record.standstill = true ∧ s.shown park = 1 ∧ s.gear.dirState = .n := by
  simp only [State.stationary, Bool.and_eq_true, beq_iff_eq, and_assoc]

theorem State.enterSetupResult_of_loading (h : s.mode.op = .unloaded ∨ s.mode.op = .setup) :
    s.enterSetupResult = .done := by
  rcases h with h | h <;> simp only [State.enterSetupResult, h]

theorem State.enterSetupResult_of_run (h : s.mode.op = .run) :
    s.enterSetupResult = if s.stationary then .done else .notStationary := by
  simp only [State.enterSetupResult, h]

theorem State.enterSetupResult_of_stopped (h : s.mode.op = .degraded ∨ s.mode.op = .safeStop ∨ s.mode.op = .latched) :
    s.enterSetupResult = .refusedState := by
  rcases h with h | h | h <;> simp only [State.enterSetupResult, h]

/-- The conditions are those at the request: the counting of its frame touches none of them. -/
theorem State.counted_enterSetupResult (s : State) (time : Time) :
    (s.counted time).enterSetupResult = s.enterSetupResult := rfl

/-- In SETUP, or refused, the reply is all. -/
theorem State.requestSetup_stays (h : s.mode.op = .setup ∨ s.enterSetupResult ≠ .done) :
    s.requestSetup = s.reply 0x02 s.enterSetupResult [] := by
  have stay : ¬(s.enterSetupResult = .done ∧ s.mode.op ≠ .setup) := fun ⟨done, other⟩ => h.elim other (· done)
  simp only [State.requestSetup, if_neg stay]

theorem State.requestSetup_enters (h : s.mode.op ≠ .setup) (done : s.enterSetupResult = .done) :
    s.requestSetup = (s.setOp .setup).reply 0x02 .done [] := by
  simp only [State.requestSetup, done, ne_eq, h, not_false_eq_true, and_self, if_true]

theorem exec_enterSetup (h : s.Takes r 1) :
    exec (.enterSetup time r) s = .next (s.counted time).requestSetup.settled :=
  calc exec (.enterSetup time r) s
    _ = .next (s.receiveRequest time 0x02 r) := rfl
    _ = .next ((s.counted time).handleRequest (rxData r.dlcCode (0x02 :: r.rest))).settled := by
      rw [State.receiveRequest_handled h rfl]
    _ = .next (s.counted time).requestSetup.settled := by
      obtain ⟨-, -, -, -, dlc⟩ := h
      have first : dataAt (rxData r.dlcCode (0x02 :: r.rest)) 0 = 2 := rxData_code dlc _ _
      simp only [State.handleRequest, first]

/-- In SETUP, or refused, ENTER_SETUP is answered and changes nothing. -/
theorem exec_enterSetup_stays (h : s.Takes r 1) {res : Result} (result : s.enterSetupResult = res)
    (stays : s.mode.op = .setup ∨ res ≠ .done) :
    ∃ t, exec (.enterSetup time r) s = .next t ∧ AnsweredOnly s t time 0x02 res [] ∧ t.mgmt = s.mgmt := by
  have here : (s.counted time).enterSetupResult = res := (s.counted_enterSetupResult time).trans result
  have alone : (s.counted time).requestSetup = (s.counted time).reply 0x02 res [] :=
    here ▸ State.requestSetup_stays (stays.imp id (here ▸ ·))
  refine ⟨_, exec_enterSetup h, ?_⟩
  rw [alone]
  exact State.counted_reply h.1 _ _ _

/-- Accepted outside SETUP, ENTER_SETUP makes the operating state SETUP; there no event that the entry brings, in any order,
changes it again. -/
theorem exec_enterSetup_enters (h : s.Takes r 1) (other : s.mode.op ≠ .setup) (done : s.enterSetupResult = .done) :
    ∃ t, exec (.enterSetup time r) s = .next t ∧ AnsweredToo s t time 0x02 [] ∧ t.intake = s.intake ∧
      t.mode = { s.mode with op := .setup, runTimer := none } ∧ t.tables = s.tables ∧ t.mgmt = s.mgmt := by
  have here : (s.counted time).enterSetupResult = .done := (s.counted_enterSetupResult time).trans done
  have enters : (s.counted time).requestSetup = _ := State.requestSetup_enters other here
  refine ⟨_, exec_enterSetup h, ?_⟩
  rw [enters]
  have change := State.setOp_reacts (s.counted time) .setup
  have mode : ((s.counted time).setOp .setup).mode = { s.mode with op := .setup, runTimer := none } := State.setOp_mode _ _
  generalize (s.counted time).setOp .setup = u at change mode ⊢
  have answered := change.answered h.1.1 0x02 []
  have still : (u.reply 0x02 .done []).mode.op.still = true := congrArg (·.op.still) mode
  have events := State.settled_still (.refl (u.reply 0x02 .done [])) still
  exact ⟨answered.acts events, events.intake.trans change.intake, events.mode.trans mode,
    events.tables.trans change.tables, events.mgmt.trans change.mgmt⟩

end

/-- Settles O26, from the Mode Controller's outcome in each operating state. -/
theorem enterSetupFollowsTheOperatingState : Obligations.EnterSetupFollowsTheOperatingState := by
  intro s time r h stationary
  refine ⟨fun setup => ?_, fun accepted => ?_, fun run moving => ?_, fun stopped => ?_⟩
  · exact exec_enterSetup_stays h (State.enterSetupResult_of_loading (.inr setup)) (.inl setup)
  · rcases accepted with unloaded | ⟨run, still⟩
    · exact exec_enterSetup_enters h (by rw [unloaded]; nofun) (State.enterSetupResult_of_loading (.inl unloaded))
    · have done : s.enterSetupResult = .done := by
        rw [State.enterSetupResult_of_run run, if_pos (State.stationary_iff.2 still)]
      exact exec_enterSetup_enters h (by rw [run]; nofun) done
  · have refused : s.enterSetupResult = .notStationary := by
      rw [State.enterSetupResult_of_run run, if_neg (mt State.stationary_iff.1 moving)]
    exact exec_enterSetup_stays h refused (.inr nofun)
  · exact exec_enterSetup_stays h (State.enterSetupResult_of_stopped stopped) (.inr nofun)

end Sys2Proof.Machine

/-! ### STATUS_QUERY (R186, section 13.2) -/

namespace Sys2Proof.Machine

section

variable {s : State} {time : Time} {r : ReqFrame}

/-! ### The two bits of each table: the reply's number has the table states as its digits to base 4 -/

/-- The number with the given digits to base 4, the lowest first. -/
def base4 : List Nat → Nat
  | [] => 0
  | d :: ds => d + 4 * base4 ds

theorem base4_lt {ds : List Nat} (h : ∀ d ∈ ds, d < 4) : base4 ds < 4 ^ ds.length := by
  induction ds with
  | nil => exact Nat.one_pos
  | cons d ds ih =>
    obtain ⟨low, high⟩ := List.forall_mem_cons.1 h
    have rest : base4 ds < 4 ^ ds.length := ih high
    rw [base4, List.length_cons, Nat.pow_succ]
    omega

theorem base4_div_pow {ds : List Nat} (h : ∀ d ∈ ds, d < 4) (k : Nat) : base4 ds / 4 ^ k = base4 (ds.drop k) := by
  induction ds generalizing k with
  | nil => rw [List.drop_nil, base4, Nat.zero_div]
  | cons d ds ih =>
    obtain ⟨low, high⟩ := List.forall_mem_cons.1 h
    cases k with
    | zero => rw [Nat.pow_zero, Nat.div_one, List.drop_zero]
    | succ k =>
      have rest : base4 (d :: ds) / 4 = base4 ds := by rw [base4]; omega
      rw [List.drop_succ_cons, Nat.pow_succ, Nat.mul_comm, ← Nat.div_div_eq_div_mul, rest, ih high]

theorem TableState.code_lt (x : TableState) : x.code < 4 := by
  cases x <;> decide

/-- The codes of the ten table states, table 1 first. -/
def Tables.codes (ts : Tables) : List Nat := TableId.all.map fun id => (ts.get id).state.code

theorem Tables.codes_length (ts : Tables) : ts.codes.length = 10 := List.length_map ..

theorem Tables.codes_lt (ts : Tables) : ∀ d ∈ ts.codes, d < 4 := by
  intro d hd
  obtain ⟨id, -, rfl⟩ := List.mem_map.1 hd
  exact (ts.get id).state.code_lt

theorem Tables.codes_drop (ts : Tables) (id : TableId) :
    ts.codes.drop (id.toNat - 1) = (ts.get id).state.code :: ts.codes.drop id.toNat := by
  cases id <;> rfl

theorem tableStateBits_eq_base4 (ts : Tables) : tableStateBits ts = base4 ts.codes := by
  simp only [tableStateBits, Tables.codes, TableId.all, TableId.toNat, List.map_cons, List.map_nil, List.sum_cons,
    List.sum_nil, base4]
  omega

theorem tableStateBits_digit (ts : Tables) (id : TableId) :
    tableStateBits ts / 4 ^ (id.toNat - 1) % 4 = (ts.get id).state.code :=
  calc tableStateBits ts / 4 ^ (id.toNat - 1) % 4
    _ = base4 (ts.codes.drop (id.toNat - 1)) % 4 := by
      rw [tableStateBits_eq_base4, base4_div_pow ts.codes_lt]
    _ = ((ts.get id).state.code + 4 * base4 (ts.codes.drop id.toNat)) % 4 := by
      rw [ts.codes_drop, base4]
    _ = (ts.get id).state.code := by rw [Nat.add_mul_mod_self_left, Nat.mod_eq_of_lt (TableState.code_lt _)]

theorem tableStateBits_lt (ts : Tables) : tableStateBits ts < 2 ^ 20 :=
  calc tableStateBits ts
    _ = base4 ts.codes := tableStateBits_eq_base4 ts
    _ < 4 ^ ts.codes.length := base4_lt ts.codes_lt
    _ = 4 ^ 10 := by rw [ts.codes_length]
    _ = 2 ^ 20 := by decide

/-! ### The request -/

/-- A zero capture in flight does not keep STATUS_QUERY from its rule (R181, case 3). -/
theorem State.takeRequest_status {data : List Byte} (first : dataAt data 0 = 1) (restart : s.mgmt.restart = none) :
    s.takeRequest data = s.statusReply := by
  have nonempty : data ≠ [] := fun e => by rw [e] at first; exact absurd first (by decide)
  have enough : tooShort data = false := by
    unfold tooShort
    rw [first]
    exact decide_eq_false (Nat.not_lt.2 (List.length_pos_iff.2 nonempty))
  have handled : s.handleRequest data = s.statusReply := by simp only [State.handleRequest, first]
  simp only [State.takeRequest, if_neg nonempty, enough, first, handled, restart, running, Option.isSome_none,
    Bool.false_eq_true, ne_eq, not_true_eq_false, and_false, if_false]

theorem exec_statusQuery (reset : s.resetting = none) (hears : s.tLink.error ≠ .busOff) (restart : s.mgmt.restart = none)
    (dlc : 1 ≤ r.dlcCode.val) : exec (.statusQuery time 0x01 r) s = .next (s.counted time).statusReply.settled := by
  have on : s.hears .t = true := bne_iff_ne.2 hears
  have taken : (s.counted time).takeRequest (rxData r.dlcCode (0x01 :: r.rest)) = (s.counted time).statusReply :=
    State.takeRequest_status (rxData_code dlc _ _) restart
  calc exec (.statusQuery time 0x01 r) s
    _ = .next (s.receiveRequest time 0x01 r) := rfl
    _ = .next ((s.counted time).takeRequest (rxData r.dlcCode (0x01 :: r.rest))).settled := by
      rw [State.receiveRequest, State.receive, State.unlessReset_on reset, if_pos on, State.takeFrame_management]
      rfl
    _ = .next (s.counted time).statusReply.settled := by rw [taken]

end

/-- Settles O25: the reply is made of the state at the request, and its number has the table states as digits to base 4. -/
theorem statusQueryReportsStateAndTables : Obligations.StatusQueryReportsStateAndTables := by
  intro s time r ready hears restart dlc
  obtain ⟨answered, mgmt⟩ := State.counted_reply (time := time) ready 0x01 .done
    [byte1 s.mode.op.code, byte1 (tableStateBits s.tables), byte1 (tableStateBits s.tables / 256 : Nat),
      byte1 (tableStateBits s.tables / 65536 : Nat), byte1 s.mode.cause.code,
      byte1 (if s.mgmt.capture.isSome then 1 else 0)]
  exact ⟨_, tableStateBits s.tables, exec_statusQuery ready.1 hears restart dlc, mgmt, tableStateBits_digit s.tables,
    tableStateBits_lt s.tables, answered⟩

end Sys2Proof.Machine

/-! ### WRITE_WORDS (R184): the loaded word at the cursor, and what a change of the table in use brings (R182) -/

namespace Sys2Proof.Machine

section

variable {s : State} {time : Time} {r : ReqFrame} {c : Cursor}

/-! ### A new loaded content (R182) -/

/-- Reports that conditions are gone write the Fault List alone. -/
theorem State.goneAll_only (s : State) (k : FaultKind) (is : List (Fin 16)) :
    ∃ faults, is.foldl (fun s i => s.gone k i.val) s = { s with faults := faults } := by
  induction is generalizing s with
  | nil => exact ⟨_, rfl⟩
  | cons i is ih => exact ih (s.gone k i.val)

/-- What a change of a table in use writes that is no reaction of a block: the slots, the map before and the Fault List. -/
def State.relaid (s : State) (slots : Vector Slot 16) (map : List TWord) (faults : Faults) : State :=
  { s with intake := { s.intake with slots := slots, mapBefore := map }, faults := faults }

/-- A new map in use sets the slots anew and reports lost signals gone (R11); all else follows by reactions. -/
theorem State.mapChanged_acts (s : State) (before : List TWord) :
    ∃ slots faults, Acts (s.relaid slots before faults) (s.mapChanged before) := by
  obtain ⟨faults, gone⟩ := s.goneAll_only .signalLost ((List.finRange 16).filter fun i => (s.slot i).state == .substituted)
  unfold State.mapChanged
  simp only [gone]
  exact ⟨_, faults, State.announceSlots_acts (.refl _) _⟩

theorem State.tableChanged_acts (s : State) (id : TableId) (before : List TWord) :
    ∃ slots map faults, Acts (s.relaid slots map faults) (s.tableChanged id before) := by
  have reaction {t : State} (h : Acts s t) : ∃ slots map faults, Acts (s.relaid slots map faults) t := ⟨_, _, _, h⟩
  cases id with
  | intakeMap =>
    obtain ⟨slots, faults, h⟩ := s.mapChanged_acts before
    exact ⟨slots, before, faults, h⟩
  | slotTable => exact reaction (State.announceSlots_acts (.refl s) _)
  | gear =>
    refine reaction ?_
    show Acts s (if before = s.gearWords then s else s.gearTableChanged)
    split
    · exact .refl s
    · exact State.gearTableChanged_acts (.refl s)
  | clutch => exact reaction (State.facCheckEval_acts (State.decideFill_acts (.refl s)))
  | axle => exact reaction (State.facEvaluate_acts (.refl s))
  | trailer =>
    exact reaction
      (State.motionChanged_acts (State.evalCoupled_acts (State.trailerEvaluate_acts (.withTrailer (.refl s) _))) _ _)
  | emission | shiftSchedule | hitch | supervision => exact reaction (.refl s)

/-- A new loaded content writes the table; what else it writes and brings is that of a change of the table in use. -/
theorem State.loadTable_acts (s : State) (id : TableId) (ws : List TWord) :
    ∃ slots map faults, Acts ((s.setTable id ⟨.uncommitted, ws⟩).relaid slots map faults) (s.loadTable id ws) := by
  unfold State.loadTable
  simp only
  split
  · exact State.tableChanged_acts _ id (s.inUse id)
  · exact ⟨_, _, _, .refl _⟩

/-- A table that is not COMMITTED is not in use: its new content brings nothing. -/
theorem State.loadTable_unused {id : TableId} (h : (s.table id).state ≠ .committed) (ws : List TWord) :
    s.loadTable id ws = s.setTable id ⟨.uncommitted, ws⟩ := if_neg h

/-! ### The request (R181, R184) -/

theorem dataAt_drop (bs : List Byte) (n k : Nat) : dataAt (bs.drop n) k = dataAt bs (n + k) := by
  simp only [dataAt, List.getD_eq_getElem?_getD, List.getElem?_drop]

/-- The data bytes of a WRITE_WORDS as they stand. -/
def writtenWord (r : ReqFrame) : TWord :=
  wordOf (reqByte 0x11 r 2) (reqByte 0x11 r 3) (reqByte 0x11 r 4) (reqByte 0x11 r 5) (reqByte 0x11 r 6) (reqByte 0x11 r 7)

/-- The counting of the request's frame touches no table. -/
theorem State.counted_table (s : State) (time : Time) (id : TableId) : (s.counted time).table id = s.table id :=
  congrArg (Tables.get · id) (rfl : (s.counted time).tables = s.tables)

/-- The loaded content with the written word at the cursor. -/
def State.writtenWords (s : State) (c : Cursor) (r : ReqFrame) : List TWord :=
  (s.table c.table).loaded.set c.word (writtenWord r)

/-- The rule of WRITE_WORDS on the bytes of a request. -/
def State.writeRequest (r : ReqFrame) (s : State) : State :=
  s.writeWord (reqByte 0x11 r 1) ((rxData r.dlcCode (0x11 :: r.rest)).drop 2)

theorem exec_writeWords (h : s.Takes r 8) :
    exec (.writeWords time r) s = .next ((s.counted time).writeRequest r).settled :=
  calc exec (.writeWords time r) s
    _ = .next (s.receiveRequest time 0x11 r) := rfl
    _ = .next ((s.counted time).handleRequest (rxData r.dlcCode (0x11 :: r.rest))).settled := by
      rw [State.receiveRequest_handled h rfl]
    _ = .next ((s.counted time).writeRequest r).settled := by
      obtain ⟨-, -, -, -, dlc⟩ := h
      have first : dataAt (rxData r.dlcCode (0x11 :: r.rest)) 0 = 17 := rxData_code (Nat.le_trans (by decide) dlc) _ _
      simp only [State.handleRequest, first, State.writeRequest, reqByte]

/-- The tests of WRITE_WORDS in their order (R184). -/
theorem State.writeRequest_refusedState (h : s.mode.op ≠ .setup) :
    s.writeRequest r = s.reply 0x11 .refusedState [] := if_pos h

theorem State.writeRequest_noCursor (setup : s.mode.op = .setup) (absent : s.mgmt.cursor = none) :
    s.writeRequest r = s.reply 0x11 .badCursor [] := by
  simp only [State.writeRequest, State.writeWord, setup, absent, ne_eq, not_true_eq_false, if_false]

theorem State.writeRequest_wrongCheck (setup : s.mode.op = .setup) (cursor : s.mgmt.cursor = some c)
    (check : reqByte 0x11 r 1 ≠ c.word % 256) : s.writeRequest r = s.reply 0x11 .badCursor [] := by
  simp only [State.writeRequest, State.writeWord, setup, cursor, ne_eq, not_true_eq_false, if_false, check,
    not_false_eq_true, if_true]

theorem State.writeRequest_outOfRange (setup : s.mode.op = .setup) (cursor : s.mgmt.cursor = some c)
    (check : reqByte 0x11 r 1 = c.word % 256) (size : c.table.size ≤ c.word) :
    s.writeRequest r = s.reply 0x11 .outOfRange [] := by
  simp only [State.writeRequest, State.writeWord, setup, cursor, ne_eq, not_true_eq_false, if_false, check, size, if_true]

theorem State.writeRequest_writes (setup : s.mode.op = .setup) (cursor : s.mgmt.cursor = some c)
    (check : reqByte 0x11 r 1 = c.word % 256) (size : c.word < c.table.size) :
    s.writeRequest r =
      ((s.loadTable c.table (s.writtenWords c r)).advance c).reply 0x11 .done [byte1 c.table.toNat, byte1 (c.word + 1 : Nat)] := by
  simp only [State.writeRequest, State.writeWord, setup, cursor, ne_eq, not_true_eq_false, if_false, check,
    Nat.not_le.2 size, dataAt_drop, Nat.reduceAdd]
  rfl

/-- A failed test is answered and changes nothing. -/
theorem exec_writeWords_refused (h : s.Takes r 8) {res : Result}
    (refused : (s.counted time).writeRequest r = (s.counted time).reply 0x11 res []) :
    ∃ t, exec (.writeWords time r) s = .next t ∧ AnsweredOnly s t time 0x11 res [] ∧ t.mgmt = s.mgmt := by
  refine ⟨_, exec_writeWords h, ?_⟩
  rw [refused]
  exact State.counted_reply h.1 _ _ _

section

variable {id : TableId} {x : Table} {slots : Vector Slot 16} {map : List TWord} {faults : Faults} {u : State}

/-- The reply to a write whose new content has brought at most the reactions to a change of the table in use. -/
theorem Acts.write_answered (change : Acts (((s.counted time).setTable id x).relaid slots map faults) u)
    (reset : s.resetting = none) (data : List Byte) :
    AnsweredToo s ((u.advance c).reply 0x11 .done data) time 0x11 data where
  heard := ((State.counted_heard reset).offered (t := u.advance c) change.now change.resetting change.tLink).replied _ _ _
  record := by
    show u.intake.record = s.intake.record
    rw [change.intake]
    rfl
  draft := by
    have draft : u.draft = s.draft.count (time - s.now) := change.draft
    show u.draft = { s.draft with timeCount := u.draft.timeCount }
    rw [draft]
    rfl
  supervisor := change.supervisor
  vLink := change.vLink
  emission := change.emission
  reply := rfl

/-- In SETUP no event that the write brings, in any order, changes the operating state. -/
theorem Acts.write_settled (change : Acts (((s.counted time).setTable id x).relaid slots map faults) u)
    (reset : s.resetting = none) (setup : s.mode.op = .setup) (data : List Byte) :
    let t := ((u.advance c).reply 0x11 .done data).settled
    AnsweredToo s t time 0x11 data ∧ t.mgmt = { s.mgmt with cursor := some ⟨c.table, c.word + 1⟩ } ∧ t.mode = s.mode ∧
      t.tables = s.tables.put id x := by
  intro t
  have mode : u.mode = s.mode := change.mode
  have tables : u.tables = s.tables.put id x := change.tables
  have mgmt : (u.advance c).mgmt = { s.mgmt with cursor := some ⟨c.table, c.word + 1⟩ } :=
    congrArg (fun m : Management => { m with cursor := some ⟨c.table, c.word + 1⟩ }) change.mgmt
  have still : u.mode.op.still = true := by rw [mode, setup]; rfl
  have events : Acts ((u.advance c).reply 0x11 .done data) t := State.settled_still (.refl _) still
  exact ⟨(change.write_answered reset data).acts events, events.mgmt.trans mgmt, events.mode.trans mode,
    events.tables.trans tables⟩

end

/-- A write to a table that is not in use changes nothing but the table, the cursor and the reply. -/
theorem State.write_settled_unused (h : s.Ready) (id : TableId) (x : Table) (data : List Byte) :
    let t := ((((s.counted time).setTable id x).advance c).reply 0x11 .done data).settled
    SameControl s t ∧ t.faults = s.heardFaults := by
  obtain ⟨-, waiting⟩ := h
  have quiet : ((((s.counted time).setTable id x).advance c).reply 0x11 .done data).notices = [] := waiting
  rw [State.settled_nil quiet]
  exact ⟨⟨rfl, rfl, rfl, rfl, rfl, rfl, rfl, rfl, rfl, rfl, rfl, rfl, rfl, rfl, rfl, rfl⟩, rfl⟩

/-- A write that passes all tests. -/
theorem exec_writeWords_writes (h : s.Takes r 8) (setup : s.mode.op = .setup) (cursor : s.mgmt.cursor = some c)
    (check : reqByte 0x11 r 1 = c.word % 256) (size : c.word < c.table.size) :
    ∃ t, exec (.writeWords time r) s = .next t ∧
      AnsweredToo s t time 0x11 [byte1 c.table.toNat, byte1 (c.word + 1 : Nat)] ∧
      t.mgmt = { s.mgmt with cursor := some ⟨c.table, c.word + 1⟩ } ∧ t.mode = s.mode ∧
      t.tables = s.tables.put c.table ⟨.uncommitted, s.writtenWords c r⟩ ∧
      ((s.table c.table).state ≠ .committed → SameControl s t ∧ t.faults = s.heardFaults) := by
  have writes : (s.counted time).writeRequest r = _ := State.writeRequest_writes setup cursor check size
  obtain ⟨slots, map, faults, change⟩ := (s.counted time).loadTable_acts c.table (s.writtenWords c r)
  obtain ⟨answered, mgmt, mode, tables⟩ :=
    change.write_settled (c := c) h.1.1 setup [byte1 c.table.toNat, byte1 (c.word + 1 : Nat)]
  refine ⟨_, exec_writeWords h, ?_⟩
  rw [writes]
  refine ⟨answered, mgmt, mode, tables, fun unused => ?_⟩
  rw [State.loadTable_unused (by rwa [State.counted_table])]
  exact State.write_settled_unused h.1 _ _ _

end

/-- Settles O29, from the tests of R184 in their order and what a new loaded content brings. -/
theorem writeWordsWritesTheCursorWord : Obligations.WriteWordsWritesTheCursorWord := by
  intro s time r h refused
  refine ⟨fun other => ?_, fun setup absent => ?_, fun setup c cursor check => ?_, fun setup c cursor check size => ?_,
    fun setup c cursor check size => ?_⟩
  · exact exec_writeWords_refused h (State.writeRequest_refusedState other)
  · exact exec_writeWords_refused h (State.writeRequest_noCursor setup absent)
  · exact exec_writeWords_refused h (State.writeRequest_wrongCheck setup cursor check)
  · exact exec_writeWords_refused h (State.writeRequest_outOfRange setup cursor check size)
  · exact exec_writeWords_writes h setup cursor check size

end Sys2Proof.Machine

/-! ### The queue and the invariant: what every command does to them -/

namespace Sys2Proof.Machine

section

variable {s t : State}

/-- A choice between the same two values, under a condition said in other words. -/
theorem ite_of_iff {α : Type} {p q : Prop} [Decidable p] [Decidable q] (h : p ↔ q) {a b : α} :
    (if p then a else b) = if q then a else b :=
  ite_congr (propext h) (fun _ => rfl) fun _ => rfl

/-- The state after a power-on reset meets the invariant, block by block. -/
theorem State.reset_ok : State.reset.Ok where
  tables := by intro id; cases id <;> rfl
  faults := ⟨by decide, List.Pairwise.nil, nofun, by decide⟩
  tLink := ⟨by decide, by decide, by decide, by decide⟩
  vLink := ⟨by decide, by decide, by decide, by decide⟩
  record := ⟨by decide, by decide, by decide, by decide⟩
  motion := ⟨⟨by decide, by decide⟩, ⟨by decide, by decide⟩, by decide⟩
  draft := ⟨⟨by decide, by decide⟩, ⟨by decide, by decide⟩, ⟨by decide, by decide⟩⟩
  mode := ⟨by decide, by decide⟩
  supervisor := ⟨by decide, by decide⟩
  gear := ⟨nofun, nofun⟩
  hitch := ⟨by decide, by decide, by decide⟩
  memory := by decide
  fac := ⟨by decide, by decide⟩
  fill := ⟨by decide, by decide⟩

/-- Of the state before a reset only the counter of entries into SAFE_STOP stands after it (R173). -/
theorem State.afterReset_leads (s : State) (k : ResetKind) : Leads s (s.afterReset k) where
  pending := s.afterReset_pending k
  ok := fun h => { State.reset_ok with
    mode := ⟨by
      show (if k = .powerOn then 0 else s.mode.stops) ≤ 4
      split
      · decide
      · exact h.mode.stops, nofun⟩ }

/-- An event that occurs only at a condition. -/
theorem Leads.ite {c : Prop} [Decidable c] (h : c → Leads s t) : Leads s (if c then t else s) := by
  split
  · exact h ‹_›
  · exact .refl s

/-- An operation, and then all that it has brought. -/
theorem Leads.settles (h : Leads s t) : Leads s t.settled := State.settled_leads h

/-- A command that a reset in progress shuts out. -/
theorem answers_unlessReset {f : State → State} (hf : Leads s (f s)) :
    ∃ t, (Host.Outcome.next (s.unlessReset f) : Host.Outcome State Fault Refusal) = .next t ∧ Leads s t :=
  ⟨_, rfl, s.unlessReset_leads hf⟩

/-- Every command runs to a next state, leaves the queue as it is, and keeps the invariant. -/
theorem exec_leads (c : Instr) (s : State) : ∃ t, exec c s = .next t ∧ Leads s t := by
  have r := Leads.refl s
  cases c with
  | powerOnReset => exact ⟨_, rfl, State.beginReset_leads r _⟩
  | pinReset => exact ⟨_, rfl, State.pinReset_leads r⟩
  | resetEnd =>
    refine ⟨_, rfl, ?_⟩
    cases s.resetting with
    | none => exact r
    | some k => exact s.afterReset_leads k
  | restartBegin => exact answers_unlessReset (State.restartBegins_leads r)
  | signalFrame | operatorCommand | unmatchedFrame => exact ⟨_, rfl, State.receive_leads ..⟩
  | statusQuery | enterSetup | leaveSetup | selectTable | writeWords | readWords | commitTable | faultAck | captureZero
  | restart => exact ⟨_, rfl, State.receive_leads ..⟩
  | otherFrameReceived l =>
    exact answers_unlessReset (.ite fun _ => (State.changeLink_leads r l fun k => LinkCtl.rxGood_ok (k.link l)).settles)
  | frameRxError l =>
    exact answers_unlessReset (.ite fun _ => (State.changeLink_leads r l fun k => LinkCtl.rxBad_ok (k.link l)).settles)
  | transmitOffer l => exact answers_unlessReset (State.makeOffer_leads r l)
  | txSuccess l => exact answers_unlessReset (State.transmitted_leads r l)
  | txError l =>
    refine answers_unlessReset ?_
    cases (s.link l).offer with
    | none => exact r
    | some o => exact (State.offerFailed_leads r l).settles
  | arbitrationLost l => exact answers_unlessReset (State.setLink_leads r l fun k => (k.link l).ofOffer none)
  | busOffRecovery l => exact answers_unlessReset (State.recover_leads r l).settles
  | linkSuspectTimeout l => exact answers_unlessReset (State.linkSuspect_leads r l).settles
  | linkFailedTimeout l => exact answers_unlessReset (State.linkFailed_leads r l).settles
  | passageDropTimeout l => exact answers_unlessReset (State.dropExpired_leads r l)
  | slotTimeout i => exact answers_unlessReset (.ite fun _ => (State.slotTimedOut_leads r i).settles)
  | slotHoldExpiry i => exact answers_unlessReset (.ite fun _ => (State.slotHoldPassed_leads r i).settles)
  | standstillTimerExpiry => exact answers_unlessReset (.ite fun _ => (State.standstillReached_leads r).settles)
  | shuttlePendingExpiry => exact answers_unlessReset (State.shuttleDropped_leads r)
  | holdOffExpiry => exact answers_unlessReset (.ite fun _ => State.holdOffPassed_leads r)
  | deferralTimerExpiry => exact answers_unlessReset (State.deferralPassed_leads r)
  | clutchStep => exact answers_unlessReset (State.clutchStep_leads r).settles
  | fillWaitTimeout | syncTimeout => exact answers_unlessReset (.ite fun _ => (State.clutchStep_leads r).settles)
  | facPulseEnd => exact answers_unlessReset (.ite fun _ => State.pulseEnded_leads r)
  | facFillEnd => exact answers_unlessReset (.ite fun h => (State.fillEnded_leads r h).settles)
  | dwellExpiry => exact answers_unlessReset (.ite fun _ => (State.dwellPassed_leads r).settles)
  | brakeHoldExpiry => exact answers_unlessReset (.ite fun _ => (State.brakeHoldPassed_leads r).settles)
  | releaseCheckExpiry => exact answers_unlessReset (.ite fun h => State.checkFailed_leads r h)
  | refGateEnd es => exact answers_unlessReset (State.gateEnded_leads r es)
  | refOverrange => exact answers_unlessReset (State.refOverranged_leads r)
  | sensorMeasurementEnd es => exact answers_unlessReset (State.sensorDone_leads r es)
  | sensorStall => exact answers_unlessReset (State.sensorStalled_leads r)
  | firstEdge => exact answers_unlessReset (State.firstEdgeSeen_leads r)
  | hitchControlStep => exact answers_unlessReset (State.controlStep_leads r)
  | brakeStep => exact answers_unlessReset (State.brakeStepTaken_leads r)
  | stretchTailExpiry => exact answers_unlessReset (.ite fun _ => State.tailEnded_leads r)
  | lineCheckExpiry => exact answers_unlessReset (.ite fun _ => State.lineFailed_leads r)
  | emissionTimer => exact answers_unlessReset (State.emit_leads r)
  | busOffTimerExpiry => exact answers_unlessReset (.ite fun _ => (State.busOffPassed_leads r).settles)
  | runTimerExpiry => exact answers_unlessReset (.ite fun _ => State.runPassed_leads r)
  | lateTimerExpiry => exact answers_unlessReset (.ite fun _ => (State.lateExpired_leads r).settles)
  | faultAgeTick k i => exact answers_unlessReset (State.ageEntry_leads r k i.val)

/-- Taking a command off the queue touches nothing that the invariant speaks of. -/
theorem State.Ok.withPending (h : s.Ok) (q : List Instr) : ({ s with pending := q } : State).Ok := { h with }

theorem step_empty (h : s.pending = []) : step s = .next s.tick := by
  simp only [step, h]

theorem step_cons {c : Instr} {q : List Instr} (h : s.pending = c :: q) : step s = exec c { s with pending := q } := by
  simp only [step, h]

end

/-- Settles O1. -/
theorem stepRunsTheFrontCommand : Obligations.StepRunsTheFrontCommand := fun _ _ => step_cons rfl

/-- Settles O3: a part of what every command does at most. -/
theorem everyCommandAnswersNextAndKeepsTheQueue : Obligations.EveryCommandAnswersNextAndKeepsTheQueue := by
  intro c s
  obtain ⟨t, next, leads⟩ := exec_leads c s
  exact ⟨t, next, leads.pending⟩

/-- Settles O4: a tick and every command lead from `State.Ok` to `State.Ok`. -/
theorem everyStepKeepsTheInvariant : Obligations.EveryStepKeepsTheInvariant := by
  intro s t ok next
  cases queue : s.pending with
  | nil =>
    rw [step_empty queue] at next
    cases next
    exact (State.tick_leads (.refl s)).ok ok
  | cons c q =>
    obtain ⟨u, answer, leads⟩ := exec_leads c { s with pending := q }
    rw [step_cons queue, answer] at next
    cases next
    exact leads.ok (ok.withPending q)

/-- Settles O5. -/
theorem resetStateMeetsTheInvariant : Obligations.ResetStateMeetsTheInvariant := State.reset_ok

/-- The time counter moves by at most the counts of the time base (R111, R112). -/
theorem Draft.count_bounds (d : Draft) (n : Nat) :
    d.timeCount ≤ (d.count n).timeCount ∧ (d.count n).timeCount ≤ d.timeCount + n := by
  simp only [Draft.count]
  omega

/-- Settles O2, in a reset and outside one. -/
theorem emptyQueueTicksTheTimeBase : Obligations.EmptyQueueTicksTheTimeBase := by
  intro s empty
  refine ⟨s.tick, step_empty empty, ?_⟩
  by_cases reset : s.resetting = none
  · have tick : s.tick = s.atTime (s.now + 1) := if_neg (by rw [reset]; nofun)
    have passed : s.now + 1 - s.now = 1 := Nat.add_sub_cancel_left ..
    have bounds := s.draft.count_bounds (s.now + 1 - s.now)
    rw [passed] at bounds
    rw [tick, State.atTime, passed, Nat.max_eq_right (Nat.le_succ s.now)]
    exact ⟨rfl, rfl, bounds.1, bounds.2, fun h => absurd reset h⟩
  · have tick : s.tick = { s with now := s.now + 1 } := if_pos (Option.isSome_iff_ne_none.2 reset)
    rw [tick]
    exact ⟨rfl, rfl, Nat.le_refl _, Nat.le_succ _, fun _ => rfl⟩

end Sys2Proof.Machine

/-! ### Resets (R173, R188) -/

namespace Sys2Proof.Machine

section

variable {s t : State} {l : Link} {time : Time} {early : Bool} {f : Frame}

/-- A reset stops every timer and takes the part's frames off the links (R173). -/
theorem State.quiet_stopped (s : State) : s.quiet.Stopped where
  slots i := by simp [State.quiet, State.slot]
  standstill := rfl
  shuttle x hx := by
    obtain ⟨y, -, rfl⟩ := Option.map_eq_some_iff.1 hx
    rfl
  holdOff := rfl
  deferral t := by
    simp only [State.quiet]
    cases s.gear.deferral <;> nofun
  clutchStep := rfl
  pulse := rfl
  fill := rfl
  dwell := rfl
  brakeHold := rfl
  check := rfl
  controlStep := rfl
  tail := rfl
  lineCheck := rfl
  brakeStep := rfl
  silence l := by cases l <;> rfl
  drop l := by cases l <;> rfl
  offer l := by cases l <;> rfl
  emission := rfl
  busOff := rfl
  run := rfl
  late := rfl
  age e he := by
    obtain ⟨y, -, rfl⟩ := List.mem_map.1 he
    rfl
  restart := rfl

theorem State.beginReset_stopped (s : State) (k : ResetKind) : (s.beginReset k).Stopped := by
  have stopped := s.quiet_stopped
  unfold State.beginReset
  generalize s.quiet = u at stopped ⊢
  exact { stopped with }

/-- RSTN is no timer. -/
theorem State.Stopped.withRstn (h : s.Stopped) (b : Bool) : ({ s with rstn := b } : State).Stopped := { h with }

/-- A power-on reset clears the counter of entries into SAFE_STOP, the others keep it (R172, R173). -/
theorem State.beginReset_begins (s : State) (k : ResetKind) :
    (s.beginReset k).resetting = some (joinReset s.resetting k) ∧ (s.beginReset k).neut = false ∧
    (s.beginReset k).mode.stops = (if k = .powerOn then 0 else s.mode.stops) ∧ (s.beginReset k).rstn = s.rstn ∧
    (s.beginReset k).now = s.now := by
  simp only [State.beginReset, State.quiet, and_self]

theorem joinReset_powerOn (k : Option ResetKind) : joinReset k .powerOn = .powerOn := by
  rcases k with _ | _ | _ | _ <;> rfl

theorem joinReset_pin (k : Option ResetKind) :
    joinReset k .pin = if k = some .powerOn then .powerOn else .pin := by
  rcases k with _ | _ | _ | _ <;> rfl

/-- A command that waits for the end of a reset in progress (R173). -/
theorem State.unlessReset_off {g : State → State} (h : s.resetting ≠ none) : s.unlessReset g = s :=
  if_pos (Option.isSome_iff_ne_none.2 h)

/-- A controller in BUS_OFF receives no frame (R159). -/
theorem State.receive_busOff (h : (s.link l).error = .busOff) : s.receive time l early f = s := by
  have deaf : s.hears l = false := by simp [State.hears, h]
  simp only [State.receive, State.unlessReset, deaf, Bool.false_eq_true, if_false, ite_self]

theorem State.restartBegins_running {x : Time} (h : s.mgmt.restart = some x) :
    s.restartBegins = (s.expire (some x)).beginReset .management := by
  simp only [State.restartBegins, h, running, Option.isSome_some, if_true]

theorem State.restartBegins_stopped (h : s.mgmt.restart = none) : s.restartBegins = s := by
  simp only [State.restartBegins, h, running, Option.isSome_none, Bool.false_eq_true, if_false]

end

/-- Settles O6. -/
theorem supplyAndPinBeginAReset : Obligations.SupplyAndPinBeginAReset := by
  intro s
  constructor
  · obtain ⟨resetting, neut, stops, rstn, -⟩ := s.beginReset_begins .powerOn
    rw [joinReset_powerOn] at resetting
    rw [if_pos rfl] at stops
    exact ⟨s.beginReset .powerOn, rfl, resetting, s.beginReset_stopped _, neut, stops, rstn⟩
  · obtain ⟨resetting, neut, stops, -, -⟩ := s.beginReset_begins .pin
    rw [joinReset_pin] at resetting
    rw [if_neg nofun] at stops
    have resetting : (s.beginReset .pin).resetting = some (if s.resetting = some .powerOn then .powerOn else .pin) := resetting
    exact ⟨{ s.beginReset .pin with rstn := false }, rfl, resetting, (s.beginReset_stopped .pin).withRstn false, neut, stops, rfl⟩

/-- Settles O7. -/
theorem resetEndGivesTheStateAfterAReset : Obligations.ResetEndGivesTheStateAfterAReset := by
  intro s k reset
  simp only [exec, execResetEnd, reset, State.afterReset]

/-- Settles O8. -/
theorem pendingRestartBeginsAfterItsWait : Obligations.PendingRestartBeginsAfterItsWait := by
  intro s reset
  have command : exec .restartBegin s = .next s.restartBegins := by
    simp only [exec, execRestartBegin, State.unlessReset_on reset]
  refine ⟨fun x wait => ?_, fun stopped => ?_⟩
  · obtain ⟨resetting, neut, stops, -, now⟩ := (s.expire (some x)).beginReset_begins .management
    rw [show (s.expire (some x)).resetting = none from reset] at resetting
    rw [command, State.restartBegins_running wait]
    exact ⟨_, rfl, resetting, State.beginReset_stopped _ _, neut, stops, now⟩
  · rw [command, State.restartBegins_stopped stopped]

/-- Settles O9: every other command asks first whether a reset is in progress. -/
theorem onlyResetCommandsActDuringAReset : Obligations.OnlyResetCommandsActDuringAReset := by
  intro c s reset other
  have shut (g : State → State) : (Host.Outcome.next (s.unlessReset g) : Host.Outcome State Fault Refusal) = .next s :=
    congrArg _ (State.unlessReset_off reset)
  cases c with
  | powerOnReset | pinReset | resetEnd => exact absurd other (by decide)
  | _ => exact shut _

/-- Settles O22: the commands that bring a frame to a link's controller ask first whether it receives. -/
theorem busOffControllerReceivesNothing : Obligations.BusOffControllerReceivesNothing := by
  intro c s l brings off
  have silent (g : State → State) :
      s.unlessReset (fun s => if s.hears l then g s else s) = s := by
    have deaf : s.hears l = false := by simp [State.hears, off]
    simp only [State.unlessReset, deaf, Bool.false_eq_true, if_false, ite_self]
  cases c
  case otherFrameReceived | frameRxError =>
    cases brings
    exact congrArg _ (silent _)
  case signalFrame | operatorCommand | unmatchedFrame | statusQuery | enterSetup | leaveSetup | selectTable | writeWords
      | readWords | commitTable | faultAck | captureZero | restart =>
    cases brings
    exact congrArg _ (State.receive_busOff off)
  all_goals cases brings

/-- Settles O10: the fields of the one state, block by block. -/
theorem resetLeavesTheStatedValues : Obligations.ResetLeavesTheStatedValues := by
  refine ⟨rfl, rfl, rfl, rfl, rfl, rfl, rfl, rfl, rfl, rfl, rfl, rfl, rfl, rfl, rfl, ?_, rfl, rfl, rfl, rfl, rfl, rfl, rfl, rfl,
    rfl, rfl, rfl, ?_, ?_, ?_, rfl, ?_⟩
  · decide
  · decide
  · intro l; cases l <;> exact ⟨rfl, rfl, rfl, rfl, rfl⟩
  · intro id; cases id <;> rfl
  · intro id; cases id <;> rfl

end Sys2Proof.Machine

/-! ### The Fault List: a raise and an age tick (R177, R178) -/

namespace Sys2Proof.Machine

section

variable {es pre post : List FaultEntry} {e : FaultEntry} {k : FaultKind} {i : Nat} {f : Faults} {x : Timer} {s : State}

theorem FaultEntry.is_false : e.is k i = false ↔ ¬(e.kind = k ∧ e.index = i) := by
  rw [← Bool.not_eq_true, FaultEntry.is_iff]

/-- Of distinct entries no other has the kind and index of one of them. -/
theorem Distinct.others (h : Distinct (pre ++ e :: post)) (kind : e.kind = k) (index : e.index = i) :
    (∀ a ∈ pre, a.is k i = false) ∧ ∀ a ∈ post, a.is k i = false := by
  obtain ⟨-, tail, apart⟩ := List.pairwise_append.1 h
  subst kind index
  constructor
  · exact fun a ha => FaultEntry.is_false.2 (apart a ha e List.mem_cons_self)
  · intro a ha
    rw [FaultEntry.is_false]
    exact fun same => (List.pairwise_cons.1 tail).1 a ha ⟨same.1.symm, same.2.symm⟩

/-- A change of the entries of one kind and index leaves a list without one. -/
theorem map_named_absent (h : ∀ a ∈ es, a.is k i = false) (g : FaultEntry → FaultEntry) :
    (es.map fun a => if a.is k i then g a else a) = es := by
  have same : (es.map fun a => if a.is k i then g a else a) = es.map id :=
    List.map_congr_left fun a ha => by rw [h a ha]; rfl
  exact same.trans (List.map_id es)

/-- Of distinct entries it changes the one. -/
theorem map_named (h : Distinct (pre ++ e :: post)) (kind : e.kind = k) (index : e.index = i)
    (g : FaultEntry → FaultEntry) :
    ((pre ++ e :: post).map fun a => if a.is k i then g a else a) = pre ++ g e :: post := by
  obtain ⟨before, after⟩ := h.others kind index
  rw [List.map_append, List.map_cons, map_named_absent before, map_named_absent after,
    if_pos (FaultEntry.is_iff.2 ⟨kind, index⟩)]

theorem any_named (kind : e.kind = k) (index : e.index = i) : (pre ++ e :: post).any (·.is k i) = true :=
  List.any_eq_true.2 ⟨e, by simp, FaultEntry.is_iff.2 ⟨kind, index⟩⟩

theorem any_named_absent : es.any (·.is k i) = false ↔ ∀ a ∈ es, ¬(a.kind = k ∧ a.index = i) := by
  simp only [List.any_eq_false, Bool.not_eq_true, FaultEntry.is_false]

/-- The oldest STORED entry is the first. -/
theorem dropOldestStored_append (active : ∀ a ∈ pre, a.stored = false) (stored : e.stored = true) :
    dropOldestStored (pre ++ e :: post) = some (pre ++ post) := by
  induction pre with
  | nil => exact if_pos stored
  | cons a pre ih =>
    obtain ⟨first, rest⟩ := List.forall_mem_cons.1 active
    simp only [List.cons_append, dropOldestStored, first, Bool.false_eq_true, if_false, ih rest, Option.map_some]

theorem dropOldestStored_active (h : ∀ a ∈ es, a.stored = false) : dropOldestStored es = none := by
  induction es with
  | nil => rfl
  | cons a es ih =>
    obtain ⟨first, rest⟩ := List.forall_mem_cons.1 h
    simp only [dropOldestStored, first, Bool.false_eq_true, if_false, ih rest, Option.map_none]

/-! ### The four cases of a raise -/

theorem Faults.raised_standing (h : f.entries.any (·.is k i) = true) : f.raised k i x = { f with
    entries := f.entries.map fun a => if a.is k i then { a with stored := false, count := min 255 (a.count + 1) } else a } :=
  if_pos h

theorem Faults.raised_new (absent : f.entries.any (·.is k i) = false) (room : f.entries.length < 16) :
    f.raised k i x = { f with entries := f.entries ++ [⟨k, i, false, 1, 0, x⟩] } := by
  simp only [Faults.raised, absent, Bool.false_eq_true, if_false, maxEntries, room, if_true]

theorem Faults.raised_full (absent : f.entries.any (·.is k i) = false) (full : f.entries.length = 16) :
    f.raised k i x = match dropOldestStored f.entries with
      | some es => { f with entries := es ++ [⟨k, i, false, 1, 0, x⟩] }
      | none => { f with overflow := true } := by
  simp only [Faults.raised, absent, Bool.false_eq_true, if_false, maxEntries, full, Nat.lt_irrefl] <;> rfl

/-! ### An age tick -/

theorem State.ageEntry_found (h : s.faults.entries.find? (·.is k i) = some e) : s.ageEntry k i = { s.expire e.timer with
    faults := { s.faults with entries := s.faults.entries.map fun a => if a.is k i then a.older else a } } := by
  simp only [State.ageEntry, h]
  rfl

theorem State.ageEntry_absent (h : s.faults.entries.find? (·.is k i) = none) : s.ageEntry k i = s := by
  simp only [State.ageEntry, h]

end

/-- Settles O60: by whether the list has the entry, has room, and has a STORED entry. -/
theorem raisedFaultFindsItsPlace : Obligations.RaisedFaultFindsItsPlace := by
  intro f k i x ok new absent
  refine ⟨fun pre post e entries kind index => ?_, fun none room => ?_, fun pre post e none full entries stored active => ?_,
    fun none full active => ?_⟩
  · rw [Faults.raised_standing (by rw [entries]; exact any_named kind index), entries,
      map_named (entries ▸ ok.distinct) kind index]
  · exact Faults.raised_new (any_named_absent.2 none) room
  · rw [Faults.raised_full (any_named_absent.2 none) full, entries, dropOldestStored_append active stored]
  · rw [Faults.raised_full (any_named_absent.2 none) full, dropOldestStored_active active]

/-- Settles O59. -/
theorem ageTickAgesItsEntry : Obligations.AgeTickAgesItsEntry := by
  intro s k i reset
  have command : exec (.faultAgeTick k i) s = .next (s.ageEntry k i.val) :=
    congrArg Host.Outcome.next (State.unlessReset_on reset)
  refine ⟨fun pre post e entries kind index distinct x timer => ?_, fun absent => ?_⟩
  · have before := (Distinct.others (entries ▸ distinct) kind index).1
    have found : s.faults.entries.find? (·.is k i.val) = some e := by
      rw [entries, List.find?_append, List.find?_eq_none.2 fun a ha => by rw [before a ha]; nofun, Option.none_or]
      exact List.find?_cons_of_pos (FaultEntry.is_iff.2 ⟨kind, index⟩)
    rw [command, State.ageEntry_found found, timer, entries, map_named (entries ▸ distinct) kind index, FaultEntry.older, timer]
    rfl
  · have none : s.faults.entries.find? (·.is k i.val) = none :=
      List.find?_eq_none.2 fun a ha => by rw [FaultEntry.is_iff]; exact absent a ha
    rw [command, State.ageEntry_absent none]

end Sys2Proof.Machine

/-! ### Values of frames and of curves: extractions (R5 to R7), the Operator Request Record (R17, R18), the trailer brake's
demands (R145 to R149) -/

namespace Sys2Proof.Machine

section

variable (x : Extraction) (data : List Byte)

/-! ### Extractions -/

theorem Extraction.rawBits_eq : x.rawBits data = (if x.wide = false then dataAt data x.start
    else if x.big = false then dataAt data x.start + 256 * dataAt data (x.start + 1)
    else 256 * dataAt data x.start + dataAt data (x.start + 1)) := by
  unfold Extraction.rawBits
  cases x.wide
  · rfl
  · cases x.big <;> simp only [Bool.true_eq_false, Bool.false_eq_true, if_true, if_false, Nat.mul_comm]

theorem Extraction.present_iff : x.present data = true ↔ x.start + (if x.wide then 2 else 1) ≤ data.length :=
  decide_eq_true_iff

theorem Extraction.available_iff :
    x.available data = true ↔ x.rawBits data ≠ (if x.wide then 65535 else 255) := by
  rw [Extraction.available, bne_iff_ne, Extraction.width]
  cases x.wide <;> exact Iff.rfl

/-- The bytes of an extraction as a number, in two's complement when it is signed. -/
def Extraction.raw : Int :=
  if x.signed = true ∧ (if x.wide then 32768 else 128) ≤ x.rawBits data
  then (x.rawBits data : Int) - (if x.wide then 65536 else 256) else x.rawBits data

theorem Extraction.raw_eq :
    (if x.signed then signedOf (x.rawBits data) (8 * x.width) else (x.rawBits data : Int)) = x.raw data := by
  unfold Extraction.raw signedOf Extraction.width
  cases x.signed
  · simp
  · cases x.wide <;> simp <;> split <;> split <;> omega

/-- The shift to the right is the quotient rounded toward minus infinity (R7). -/
theorem Extraction.value_eq : x.value data =
    max (slotRange x.slot).1 (min (slotRange x.slot).2 (x.raw data * x.mult / 2 ^ x.shift + x.offset)) := by
  rw [← x.raw_eq data]
  rfl

end

/-- Settles O15. -/
theorem extractedValueIsScaledShiftedAndClamped : Obligations.ExtractedValueIsScaledShiftedAndClamped := by
  intro x data
  have positive : (0 : Int) < 2 ^ x.shift := Int.pow_pos (by decide)
  refine ⟨x.rawBits_eq data, x.present_iff data, x.available_iff data, x.raw data, x.raw data * x.mult / 2 ^ x.shift, rfl,
    Int.ediv_mul_le _ (Int.ne_of_gt positive), Int.lt_ediv_add_one_mul_self _ positive, x.value_eq data⟩

/-! ### The Operator Request Record -/

/-- The difference of two counters modulo 16 (R18). -/
theorem presses_some (last new : BitVec 4) : presses (some last) new =
    (let d := (new.toNat + 16 - last.toNat) % 16; if d ≤ 7 then d else 0) := by
  have difference : (new - last).toNat = (new.toNat + 16 - last.toNat) % 16 := by
    have := last.isLt
    rw [BitVec.toNat_sub]
    omega
  simp only [presses, difference]

/-- Settles O19: each field of the record is read from its bits, and the code 3 holds the value before. -/
theorem operatorRecordClampsAndHolds : Obligations.OperatorRecordClampsAndHolds := by
  refine ⟨fun r d => ?_, fun _ => rfl, presses_some⟩
  have mode : (if bitsOf d 2 2 1 = 1 then ShiftMode.auto else .manual) = .auto ↔ bitsOf d 2 2 1 = 1 := by
    split <;> simp_all
  exact ⟨rfl, rfl, rfl, rfl,
    congrArg (directionOfCode r.direction), congrArg (directionOfCode r.direction), congrArg (directionOfCode r.direction),
    congrArg (directionOfCode r.direction),
    congrArg (driveModeOfCode r.driveMode), congrArg (driveModeOfCode r.driveMode), congrArg (driveModeOfCode r.driveMode),
    congrArg (driveModeOfCode r.driveMode),
    congrArg (headlandOfCode r.headland), congrArg (headlandOfCode r.headland), congrArg (headlandOfCode r.headland),
    congrArg (headlandOfCode r.headland), mode, beq_iff_eq,
    congrArg buttonOfCode, congrArg buttonOfCode, congrArg buttonOfCode, congrArg buttonOfCode, rfl, rfl⟩

/-! ### The brake curve (R145) -/

section

variable {before after rest : List (Nat × Nat)} {a b : Nat × Nat} {p : Nat}

theorem curveAt_below (h : p < b.1) :
    curveAt (a :: b :: rest) p = a.2 + (p - a.1) * (b.2 - a.2) / (b.1 - a.1) := if_pos h

theorem curveAt_beyond (h : b.1 ≤ p) : curveAt (a :: b :: rest) p = curveAt (b :: rest) p := if_neg (Nat.not_lt.2 h)

/-- The points of a rising curve before one at or below `p` do not count. -/
theorem curveAt_skip (rising : (before ++ a :: rest).Pairwise fun v w => v.1 < w.1) (h : a.1 ≤ p) :
    curveAt (before ++ a :: rest) p = curveAt (a :: rest) p := by
  induction before with
  | nil => rfl
  | cons c before ih =>
    have tail := (List.pairwise_cons.1 rising).2
    rw [← ih tail]
    cases before with
    | nil => exact curveAt_beyond h
    | cons d before =>
      have below : d.1 < a.1 := (List.pairwise_cons.1 tail).1 a (by simp)
      exact curveAt_beyond (Nat.le_of_lt (Nat.lt_of_lt_of_le below h))

end

/-- Settles O54: the conditions of the demands as they stand, and the curve from the point at or below `p` on. -/
theorem trailerDemandsFollowTheirConditions : Obligations.TrailerDemandsFollowTheirConditions := by
  refine ⟨fun s => ⟨rfl, ?_, rfl, rfl, rfl⟩, fun before after a b p rising => ⟨fun above below => ?_, fun last beyond => ?_⟩⟩
  · simp only [State.stretchDemand, running, Bool.or_eq_true, Option.isSome_iff_ne_none]
  · rw [curveAt_skip rising above, curveAt_below below]
  · subst last
    have split : before ++ [a, b] = (before ++ [a]) ++ [b] := by rw [List.append_assoc]; rfl
    rw [split] at rising ⊢
    exact curveAt_skip rising beyond

end Sys2Proof.Machine

/-! ### Commands that touch one block: the selector's timers (R52, R54, R56), the control step (R121), the brake step (R151),
the trailer's timers (R147, R154), the three periodic frames (R165) -/

namespace Sys2Proof.Machine

section

variable {s : State} {x : Time}

/-! ### Expiries -/

/-- An expiry that is taken while its timer runs. -/
theorem next_expiry {timer : State → Timer} {f : State → State} (reset : s.resetting = none) (runs : timer s = some x) :
    (Host.Outcome.next (s.unlessReset fun s => if running (timer s) then f s else s) : Host.Outcome State Fault Refusal) =
      .next (f s) := by
  rw [State.unlessReset_on reset, runs]
  rfl

/-- An expiry of a timer that does not run has no effect (log 3). -/
theorem next_no_expiry {timer : State → Timer} {f : State → State} (reset : s.resetting = none) (stopped : timer s = none) :
    (Host.Outcome.next (s.unlessReset fun s => if running (timer s) then f s else s) : Host.Outcome State Fault Refusal) =
      .next s := by
  rw [State.unlessReset_on reset, stopped]
  rfl

theorem next_unlessReset {f : State → State} (reset : s.resetting = none) :
    (Host.Outcome.next (s.unlessReset f) : Host.Outcome State Fault Refusal) = .next (f s) :=
  congrArg _ (State.unlessReset_on reset)

theorem State.shuttleDropped_some {x : ShuttlePending} (h : s.gear.shuttle = some x) : s.shuttleDropped =
    { s.expire x.timer with gear := { s.gear with shuttle := none, flag := .dropped } } := by
  simp only [State.shuttleDropped, h]
  rfl

theorem State.shuttleDropped_none (h : s.gear.shuttle = none) : s.shuttleDropped = s := by
  simp only [State.shuttleDropped, h]

theorem State.deferralPassed_running {t : Timer} (h : s.gear.deferral = .running t) : s.deferralPassed =
    { s.expire t with gear := { s.gear with deferral := .expired } } := by
  simp only [State.deferralPassed, h]
  rfl

theorem State.deferralPassed_stopped (h : ∀ t, s.gear.deferral ≠ .running t) : s.deferralPassed = s := by
  unfold State.deferralPassed
  split
  · exact absurd ‹_› (h _)
  · rfl
  · rfl

end

/-- Settles O43. -/
theorem selectorTimersPass : Obligations.SelectorTimersPass := by
  intro s reset
  refine ⟨fun x shuttle => ?_, fun none => ?_, fun x runs => ?_, fun none => ?_, fun x runs => ?_, fun none => ?_⟩
  · rw [← State.shuttleDropped_some shuttle]
    exact next_unlessReset reset
  · refine (next_unlessReset reset).trans ?_
    rw [State.shuttleDropped_none none]
  · refine (next_expiry (timer := fun s => s.gear.holdOff) reset runs).trans ?_
    rw [State.holdOffPassed, runs]
    rfl
  · exact next_no_expiry (timer := fun s => s.gear.holdOff) reset none
  · rw [← State.deferralPassed_running runs]
    exact next_unlessReset reset
  · refine (next_unlessReset reset).trans ?_
    rw [State.deferralPassed_stopped none]

/-! ### The control law (R131 to R136) -/

section

variable {t : HitchTable} {x : LawInputs} {s : State} {u : Int}

/-- The eleven stages are those of the law. -/
theorem lawOf_law {dial : Nat} (h : x.s = dial * 4) (lowering : Bool) :
    Law t dial x.pos x.dTotal x.quality x.mix x.drop x.slipLimit x.slipValid x.slipF lowering (lawOf t x lowering) := by
  have mixed : (if lowering = true ∨ x.quality = .none then (0 : Int) else x.mix) =
      if x.quality = .none ∨ lowering = true then 0 else (x.mix : Int) := by simp only [or_comm]
  have dead (e : Int) : (if e.natAbs ≤ t.deadBand then (0 : Int) else (e * t.kH).tdiv 16) =
      if (e.natAbs : Int) ≤ t.deadBand then 0 else (e * t.kH).tdiv 16 := by simp only [Int.ofNat_le]
  have limit (v : Int) : (if lowering then v else slipLimited t x v) =
      if lowering = false ∧ 0 < x.slipLimit ∧ x.slipValid = true ∧ (x.slipLimit * 10 : Int) < x.slipF
      then min v (max (-1000) (-(((x.slipF - x.slipLimit * 10) * t.kS).tdiv 16))) else v := by
    cases lowering
    · simp only [Bool.false_eq_true, if_false, true_and]; rfl
    · simp only [if_true, Bool.true_eq_false, false_and, if_false]
  refine ⟨x.s, x.ePos, ((1000 - x.s) * t.dSpan).tdiv 1000, x.eDraft t, _, x.error t lowering, _, valveOf t x.drop (x.error t lowering),
    if lowering then valveOf t x.drop (x.error t lowering) else slipLimited t x (valveOf t x.drop (x.error t lowering)),
    h, rfl, rfl, rfl, rfl, ?_, rfl, ?_, limit _, rfl⟩
  · rw [← mixed]; rfl
  · rw [← dead]; rfl

/-- The valve command lies in its range when the drop rate does (R134 to R136). -/
theorem lawOf_bounds (drop : x.drop ≤ 100) (lowering : Bool) : inPermille (lawOf t x lowering) := by
  have valve (e : Int) : inPermille (valveOf t x.drop e) := by
    unfold inPermille valveOf
    simp only
    split <;> omega
  have limited {v : Int} (h : inPermille v) : inPermille (if lowering then v else slipLimited t x v) := by
    unfold inPermille slipLimited at *
    split
    · exact h
    · simp only
      split <;> omega
  have upper {v : Int} (h : inPermille v) : inPermille (upperLimited t x.pos v) := by
    unfold inPermille upperLimited at *
    split <;> omega
  exact upper (limited (valve _))

/-- The valve command of a control step is that of the hitch state or of the law (R120, R121). -/
theorem State.hitchCommand_valve (s : State) : ValveCommand s s.hitchCommand := by
  unfold ValveCommand State.hitchCommand
  cases s.hitch.state
  case control => exact lawOf_law (x := s.lawInputs) rfl false
  case lowering => exact lawOf_law (x := s.lawInputs) rfl true
  all_goals rfl

theorem State.hitchCommand_bounds (drop : s.intake.record.drop ≤ 100) : inPermille s.hitchCommand := by
  unfold State.hitchCommand
  cases s.hitch.state
  case control => exact lawOf_bounds (x := s.lawInputs) drop false
  case lowering => exact lawOf_bounds (x := s.lawInputs) drop true
  case raising => exact (⟨by decide, by decide⟩ : inPermille (-1000))
  all_goals exact (⟨by decide, by decide⟩ : inPermille 0)

/-! ### The control step (R121, R126, R137) -/

/-- What comes after the u of a step, in CONTROL, in LOWERING and in the other hitch states. -/
theorem State.afterLaw_control (h : s.hitch.state = .control) : s.afterLaw u =
    { s with hitch := { s.hitch with correcting := decide (u ≤ -(s.hitchT.correcting : Int)) } } := by
  simp only [State.afterLaw, h]

theorem State.afterLaw_lowering (h : s.hitch.state = .lowering) :
    s.afterLaw u = if s.lawInputs.ePos.natAbs ≤ 50 then s.setHitch .control else s := by
  simp only [State.afterLaw, h]

theorem State.afterLaw_other (control : s.hitch.state ≠ .control) (lowering : s.hitch.state ≠ .lowering) :
    s.afterLaw u = s := by
  unfold State.afterLaw
  cases h : s.hitch.state with
  | control => exact absurd h control
  | lowering => exact absurd h lowering
  | startupLock | hold | raising | transport => rfl

/-- The time base at the step, and the next step's deadline. -/
def State.controlTimed (s : State) : State :=
  { s.expire s.hitch.timer with
    hitch := { s.hitch with timer := (s.expire s.hitch.timer).nextPeriod s.hitch.timer Config.controlStepMs } }

/-- The frame of a control step, before the reports. -/
def State.controlWritten (s : State) : State :=
  s.controlTimed.writeMail .hitchValve (hitchValveData s.hitchCommand s.hitch.state)

theorem State.controlStep_eq (s : State) : s.controlStep = s.controlWritten.afterLaw s.hitchCommand := rfl

end

/-- Settles O53: the law at the state of the step, and what each hitch state makes of its u. -/
theorem controlStepWritesTheLawsCommand : Obligations.ControlStepWritesTheLawsCommand := by
  intro s reset
  refine ⟨s.controlStep, s.hitchCommand, next_unlessReset reset, s.hitchCommand_valve, State.hitchCommand_bounds, ?_⟩
  have dial : s.controlWritten.lawInputs.ePos = s.shown hitchPos - (s.hitch.restore.getD s.intake.record.dial * 4 : Nat) := by
    rw [Int.natCast_mul]
    rfl
  have timed : s.controlWritten.hitch.timer = some (s.hitch.timer.getD s.controlWritten.now + 20 * Config.msTicks) := rfl
  rw [State.controlStep_eq]
  by_cases control : s.hitch.state = .control
  · rw [State.afterLaw_control (s := s.controlWritten) control]
    exact ⟨rfl, rfl, timed, rfl, rfl, rfl, fun _ => ⟨control, decide_eq_true_iff⟩,
      fun low => absurd (control.symm.trans low) (by decide), fun other => absurd control other⟩
  · by_cases lowering : s.hitch.state = .lowering
    · rw [State.afterLaw_lowering (s := s.controlWritten) lowering, dial]
      have plain : (s.controlWritten.hitch.correcting && HitchState.control == .control) = s.hitch.correcting :=
        Bool.and_true _
      split
      · exact ⟨rfl, rfl, timed, rfl, rfl, rfl, fun h => absurd h control, fun _ => ⟨plain, rfl⟩,
          fun _ other => absurd lowering other⟩
      · exact ⟨rfl, rfl, timed, rfl, rfl, rfl, fun h => absurd h control,
          fun _ => ⟨rfl, lowering⟩, fun _ other => absurd lowering other⟩
    · rw [State.afterLaw_other (s := s.controlWritten) control lowering]
      exact ⟨rfl, rfl, timed, rfl, rfl, rfl, fun h => absurd h control, fun h => absurd h lowering, fun _ _ => ⟨rfl, rfl⟩⟩

end Sys2Proof.Machine

/-! ### The brake step and the line check (R151, R154), the trailer's timers (R147), the three periodic frames (R165) -/

namespace Sys2Proof.Machine

section

variable {s : State} {x : Time}

/-! ### The line check -/

theorem State.lineLow_iff (s : State) : s.lineLow = true ↔
    2000 ≤ s.trailer.command ∧ s.shown trailerLine < ((s.trailer.command * 30 / 100 : Nat) : Int)  :=
  (Bool.and_eq_true_iff).trans (and_congr decide_eq_true_iff decide_eq_true_iff)

/-- While the line pressure is low the check timer runs, unless the condition is present (log 26). -/
theorem State.lineCheckEval_failing (mapped : (s.slot trailerLine).state ≠ .unmapped) (low : s.lineLow = true) :
    s.lineCheckEval = { s with trailer := { s.trailer with
      lineCheck := if s.trailer.lineCheck ≠ none ∨ s.trailer.lineFault = true then s.trailer.lineCheck
        else some (s.now + 300 * Config.msTicks) } } := by
  rw [State.lineCheckEval, if_pos ⟨mapped, low⟩]
  simp only [running, Bool.or_eq_true, Option.isSome_iff_ne_none]
  split <;> rfl

theorem State.lineCheckEval_passing (h : ¬((s.slot trailerLine).state ≠ .unmapped ∧ s.lineLow = true)) :
    s.lineCheckEval = { s with
      trailer := { s.trailer with lineCheck := none, lineFault := false }
      faults := s.faults.cleared .trailerLine 0 } := if_neg h

/-! ### The brake step -/

/-- The step up to its line check. -/
def State.brakeStepWritten (s : State) : State :=
  let s := (s.expire s.trailer.timer).holdIfLatched
  let s : State := { s with trailer := { s.trailer with
    command := steppedCommand s.trailer.command s.demand s.trailerT.rRel
    source := s.demandSource
    timer := s.nextPeriod s.trailer.timer Config.brakeStepMs } }
  s.writeMail .trailerValve (trailerValveData s.trailer)

theorem State.brakeStepTaken_eq (s : State) : s.brakeStepTaken = s.brakeStepWritten.lineCheckEval := rfl

end

/-- Settles O55: the step up to the line check, and the two outcomes of the check. -/
theorem brakeStepLowersTheCommandToDemand : Obligations.BrakeStepLowersTheCommandToDemand := by
  intro s reset
  refine ⟨s.brakeStepTaken, s.brakeStepWritten.trailer.command, s.brakeStepWritten.trailer.source, next_unlessReset reset,
    rfl, rfl, ?_⟩
  rw [State.brakeStepTaken_eq]
  by_cases h : (s.brakeStepWritten.slot trailerLine).state ≠ .unmapped ∧ s.brakeStepWritten.lineLow = true
  · have low := (State.lineLow_iff _).mp h.2
    rw [State.lineCheckEval_failing h.1 h.2]
    exact ⟨rfl, rfl, fun _ => ⟨rfl, rfl⟩, fun passing => absurd ⟨h.1, low⟩ passing⟩
  · rw [State.lineCheckEval_passing h]
    exact ⟨rfl, rfl, fun failing => absurd ⟨failing.1, (State.lineLow_iff _).mpr failing.2⟩ h, fun _ => ⟨rfl, rfl⟩⟩

/-- Settles O56. -/
theorem trailerTimersPass : Obligations.TrailerTimersPass := by
  intro s reset
  refine ⟨fun x runs => ⟨s.tailEnded, ?_, ?_, rfl, rfl⟩, fun none => ?_, fun x runs => ?_, fun none => ?_⟩
  · exact next_expiry (timer := fun s => s.trailer.tail) reset runs
  · rw [← runs]
    rfl
  · exact next_no_expiry (timer := fun s => s.trailer.tail) reset none
  · refine (next_expiry (timer := fun s => s.trailer.lineCheck) reset runs).trans ?_
    rw [State.lineFailed, runs]
    rfl
  · exact next_no_expiry (timer := fun s => s.trailer.lineCheck) reset none

section

variable {f : Faults}

theorem faultReportData_empty (h : f.entries = []) : faultReportData f = List.replicate 8 0 := by
  simp only [faultReportData, h, List.getElem?_nil]

theorem faultReportData_entry {e : FaultEntry} (h : f.entries[f.reported]? = some e) : faultReportData f =
    [byte1 f.entries.length, byte1 f.reported, byte1 e.kind.code, byte1 e.index, byte1 (if e.stored then 1 else 0),
      byte1 e.count] ++ bytes2 e.age := by
  simp only [faultReportData, h]

theorem statusFlags_eq (memory : Option HeadlandMemory) (overflow : Bool) (flag : ShuttleFlag) :
    statusFlags (headlandFlag memory) overflow flag =
      headlandFlag memory + (if overflow then 4 else 0) + 8 * flag.code := by
  rw [statusFlags, Nat.mul_comm]

/-- What is written of StatusDrive and StatusMotion. -/
theorem State.emit_mail (s : State) : s.emit.mail = { s.mail with
    statusDrive := ⟨some (statusDriveData s), true⟩
    statusMotion := ⟨some (statusMotionData s), true⟩
    faultReport := s.emit.mail.faultReport } := rfl

theorem Faults.nextPosition_eq (f : Faults) :
    f.nextPosition = if f.entries.length = 0 then 0 else (f.reported + 1) % 16 := by
  simp only [Faults.nextPosition, List.length_eq_zero_iff, maxEntries]

end

/-- Settles O57. -/
theorem emissionWritesTheThreeFrames : Obligations.EmissionWritesTheThreeFrames := by
  intro s reset
  refine ⟨s.emit, next_unlessReset reset, ?_, ?_, fun h => ?_, fun e h => ?_⟩
  · rw [← Faults.reported, ← Faults.nextPosition_eq]
    rfl
  · rw [State.emit_mail, statusDriveData, statusFlags_eq]
    rfl
  · rw [← faultReportData_empty h]
    rfl
  · rw [← Faults.reported, ← faultReportData_entry h]
    rfl

end Sys2Proof.Machine

/-! ### Management requests (R181): the five cases in their order, and the requests answered by a reply alone (R183, R187,
R188) -/

namespace Sys2Proof.Machine

section

variable {s : State} {c : Instr} {time : Time} {code : Byte} {r : ReqFrame} {m : Nat} {data : List Byte}

/-! ### The five cases of R181 -/

/-- A command that brings a request receives its frame. -/
theorem exec_request (request : c.request = some (time, code, r)) (s : State) :
    exec c s = .next (s.receiveRequest time code r) := by
  cases c <;> cases request <;> rfl

theorem State.receiveRequest_taken (reset : s.resetting = none) (hears : s.tLink.error ≠ .busOff) :
    s.receiveRequest time code r = ((s.counted time).takeRequest (rxData r.dlcCode (code :: r.rest))).settled := by
  have on : s.hears .t = true := bne_iff_ne.2 hears
  rw [State.receiveRequest, State.receive, State.unlessReset_on reset, if_pos on, State.takeFrame_management]
  rfl

theorem tooShort_iff : tooShort data = true ↔ ∀ m, minimumDlc (dataAt data 0) = some m → data.length < m := by
  unfold tooShort
  split
  · exact ⟨fun _ => by simp_all, fun _ => rfl⟩
  · simp_all

theorem State.takeRequest_empty (s : State) : s.takeRequest [] = s.reply 0 .malformed [] := if_pos rfl

theorem State.takeRequest_short (some : data ≠ []) (short : tooShort data = true) :
    s.takeRequest data = s.reply (dataAt data 0) .malformed [] := by
  rw [State.takeRequest, if_neg some, if_pos short]

theorem State.takeRequest_busy (some : data ≠ []) (long : tooShort data = false) (capture : s.mgmt.capture ≠ none)
    (other : dataAt data 0 ≠ 1) : s.takeRequest data = s.reply (dataAt data 0) .busy [] := by
  rw [State.takeRequest, if_neg some, long, if_neg Bool.false_ne_true, if_pos ⟨Option.isSome_iff_ne_none.2 capture, other⟩]

theorem State.takeRequest_restarting (some : data ≠ []) (long : tooShort data = false)
    (passes : s.mgmt.capture = none ∨ dataAt data 0 = 1) (restart : s.mgmt.restart ≠ none) : s.takeRequest data = s := by
  have idle : ¬(s.mgmt.capture.isSome = true ∧ dataAt data 0 ≠ 1) := fun ⟨capture, other⟩ =>
    passes.elim (Option.isSome_iff_ne_none.1 capture) other
  rw [State.takeRequest, if_neg some, long, if_neg Bool.false_ne_true, if_neg idle,
    running, if_pos (Option.isSome_iff_ne_none.2 restart)]

/-! ### The bytes of a request -/

theorem rxData_some (dlc : 1 ≤ r.dlcCode.val) : rxData r.dlcCode (code :: r.rest) ≠ [] := by
  rw [ne_eq, ← List.length_eq_zero_iff, rxData_length]
  omega

theorem rxData_short (dlc : 1 ≤ r.dlcCode.val) (short : ∀ m, minimumDlc code.toNat = some m → r.dlcCode.val < m) :
    tooShort (rxData r.dlcCode (code :: r.rest)) = true := by
  refine tooShort_iff.2 fun m least => ?_
  rw [rxData_code dlc] at least
  have := short m least
  have := minimumDlc_bounds least
  rw [rxData_length]
  omega

theorem rxData_long (least : minimumDlc code.toNat = some m) (dlc : m ≤ r.dlcCode.val) :
    tooShort (rxData r.dlcCode (code :: r.rest)) = false := by
  obtain ⟨low, high⟩ := minimumDlc_bounds least
  refine Bool.eq_false_iff.2 fun short => ?_
  have := tooShort_iff.1 short m (by rw [rxData_code (Nat.le_trans low dlc), least])
  rw [rxData_length] at this
  omega

/-- A request whose frame is answered by the responder with a reply alone. -/
theorem exec_request_replies (request : c.request = some (time, code, r)) (ready : s.Ready)
    (hears : s.tLink.error ≠ .busOff) {n : Nat} {res : Result} {bytes : List Byte}
    (answer : (s.counted time).takeRequest (rxData r.dlcCode (code :: r.rest)) = (s.counted time).reply n res bytes) :
    ∃ t, exec c s = .next t ∧ AnsweredOnly s t time n res bytes ∧ t.mgmt = s.mgmt := by
  refine ⟨_, exec_request request s, ?_⟩
  rw [State.receiveRequest_taken ready.1 hears, answer]
  exact State.counted_reply ready _ _ _

end

/-- Settles O23: cases 1 and 2. -/
theorem shortOrUnknownRequestIsMalformed : Obligations.ShortOrUnknownRequestIsMalformed := by
  intro c s time code r request ready hears
  refine ⟨fun none => exec_request_replies request ready hears ?_, fun some short =>
    exec_request_replies request ready hears ?_⟩
  · have empty : rxData r.dlcCode (code :: r.rest) = [] := by
      rw [← List.length_eq_zero_iff, rxData_length, none]
      rfl
    rw [empty]
    exact State.takeRequest_empty _
  · rw [State.takeRequest_short (rxData_some some) (rxData_short some short), rxData_code some]

/-- Settles O24: cases 3 and 4. -/
theorem requestsMeetCaptureAndRestart : Obligations.RequestsMeetCaptureAndRestart := by
  intro c s time code r m request ready hears least dlc
  have some : 1 ≤ r.dlcCode.val := Nat.le_trans (minimumDlc_bounds least).1 dlc
  have first : dataAt (rxData r.dlcCode (code :: r.rest)) 0 = code.toNat := rxData_code some _ _
  refine ⟨fun capture other => exec_request_replies request ready hears ?_, fun passes restart => ?_⟩
  · have taken : (s.counted time).takeRequest _ = _ :=
      State.takeRequest_busy (rxData_some some) (rxData_long least dlc) capture (first ▸ other)
    rw [taken, first]
  · have taken : (s.counted time).takeRequest _ = s.counted time :=
      State.takeRequest_restarting (rxData_some some) (rxData_long least dlc) (first ▸ passes) restart
    have quiet : (s.counted time).notices = [] := ready.2
    refine ⟨_, exec_request request s, ?_⟩
    rw [State.receiveRequest_taken ready.1 hears, taken, State.settled_nil quiet]
    exact ⟨State.counted_heard ready.1,
      ⟨rfl, rfl, rfl, rfl, rfl, rfl, rfl, rfl, rfl, rfl, rfl, rfl, rfl, rfl, rfl, rfl⟩, rfl, rfl, rfl, rfl⟩

/-! ### Requests that reach their rule -/

section

variable {s : State} {c : Instr} {time : Time} {code : Byte} {r : ReqFrame} {m : Nat} {data : List Byte}

theorem exec_handled (h : s.Takes r m) (request : c.request = some (time, code, r))
    (least : minimumDlc code.toNat = some m) :
    exec c s = .next ((s.counted time).handleRequest (rxData r.dlcCode (code :: r.rest))).settled := by
  rw [exec_request request, State.receiveRequest_handled h least]

theorem requestCode (h : s.Takes r m) (least : minimumDlc code.toNat = some m) :
    dataAt (rxData r.dlcCode (code :: r.rest)) 0 = code.toNat := by
  obtain ⟨-, -, -, -, dlc⟩ := h
  exact rxData_code (Nat.le_trans (minimumDlc_bounds least).1 dlc) _ _

/-- The responder's own state is no part of an answer. -/
theorem AnsweredOnly.withMgmt {t : State} {n : Nat} {res : Result} {bytes : List Byte}
    (h : AnsweredOnly s t time n res bytes) (x : Management) : AnsweredOnly s { t with mgmt := x } time n res bytes :=
  ⟨{ h.heard with }, { h.same with }, h.tables, h.faults, h.reply⟩

theorem State.reply_withMgmt (s : State) (x : Management) (n : Nat) (res : Result) (bytes : List Byte) :
    ({ s with mgmt := x } : State).reply n res bytes = { s.reply n res bytes with mgmt := x } := rfl

/-- A request whose rule gives a reply, after at most a change of the responder's own state. -/
theorem exec_answers (h : s.Takes r m) (request : c.request = some (time, code, r))
    (least : minimumDlc code.toNat = some m) {x : Management} {n : Nat} {res : Result} {bytes : List Byte}
    (answer : (s.counted time).handleRequest (rxData r.dlcCode (code :: r.rest)) =
      ({ s.counted time with mgmt := x } : State).reply n res bytes) :
    ∃ t, exec c s = .next t ∧ AnsweredOnly s t time n res bytes ∧ t.mgmt = x := by
  have quiet : ((s.counted time).reply n res bytes).notices = [] := h.1.2
  obtain ⟨answered, -⟩ := State.counted_reply (time := time) h.1 n res bytes
  rw [State.settled_nil quiet] at answered
  refine ⟨_, exec_handled h request least, ?_⟩
  rw [answer, State.reply_withMgmt]
  generalize (s.counted time).reply n res bytes = u at quiet answered ⊢
  rw [State.settled_nil (s := { u with mgmt := x }) quiet]
  exact ⟨answered.withMgmt x, rfl⟩

/-- A request whose rule gives a reply alone. -/
theorem exec_refuses (h : s.Takes r m) (request : c.request = some (time, code, r))
    (least : minimumDlc code.toNat = some m) {n : Nat} {res : Result} {bytes : List Byte}
    (answer : (s.counted time).handleRequest (rxData r.dlcCode (code :: r.rest)) = (s.counted time).reply n res bytes) :
    ∃ t, exec c s = .next t ∧ AnsweredOnly s t time n res bytes ∧ t.mgmt = s.mgmt := by
  refine ⟨_, exec_handled h request least, ?_⟩
  rw [answer]
  exact State.counted_reply h.1 _ _ _

/-! ### The rule of each code -/

theorem State.handleRequest_select (first : dataAt data 0 = 0x10) :
    s.handleRequest data = s.selectCursor (dataAt data 1) (dataAt data 2) := by
  simp only [State.handleRequest, first]

theorem State.handleRequest_read (first : dataAt data 0 = 0x12) : s.handleRequest data = s.readWord := by
  simp only [State.handleRequest, first]

theorem State.handleRequest_capture (first : dataAt data 0 = 0x30) :
    s.handleRequest data = s.requestCapture (dataAt data 1) := by
  simp only [State.handleRequest, first]

theorem State.handleRequest_restart (first : dataAt data 0 = 0x3F) : s.handleRequest data = s.requestRestart := by
  simp only [State.handleRequest, first]

/-! ### SELECT_TABLE and READ_WORDS (R183) -/

theorem TableId.ofNat?_toNat (id : TableId) : TableId.ofNat? id.toNat = some id := by
  cases id <;> rfl

theorem TableId.ofNat?_eq_some {n : Nat} {id : TableId} (h : TableId.ofNat? n = some id) : id.toNat = n := by
  unfold TableId.ofNat? at h
  split at h <;> cases h <;> rfl

theorem TableId.ofNat?_eq_none {n : Nat} (h : ∀ id : TableId, id.toNat ≠ n) : TableId.ofNat? n = none :=
  Option.eq_none_iff_forall_not_mem.2 fun id found => h id (TableId.ofNat?_eq_some found)

theorem State.selectCursor_unknown {n word : Nat} (h : ∀ id : TableId, id.toNat ≠ n) :
    s.selectCursor n word = s.reply 0x10 .badTableId [] := by
  simp only [State.selectCursor, TableId.ofNat?_eq_none h]

theorem State.selectCursor_known {id : TableId} {word : Nat} : s.selectCursor id.toNat word =
    if id.size ≤ word then s.reply 0x10 .outOfRange []
    else ({ s with mgmt := { s.mgmt with cursor := some ⟨id, word⟩ } } : State).reply 0x10 .done [byte1 id.toNat, byte1 word] := by
  simp only [State.selectCursor, TableId.ofNat?_toNat]

theorem State.readWord_noCursor (h : s.mgmt.cursor = none) : s.readWord = s.reply 0x12 .badCursor [] := by
  simp only [State.readWord, h]

theorem State.readWord_cursor {x : Cursor} (h : s.mgmt.cursor = some x) : s.readWord =
    if x.table.size ≤ x.word then s.reply 0x12 .outOfRange []
    else ({ s with mgmt := { s.mgmt with cursor := some ⟨x.table, x.word + 1⟩ } } : State).reply 0x12 .done
      (wordBytes ((s.table x.table).loaded.getD x.word 0)) := by
  simp only [State.readWord, h]
  rfl

end

/-- Settles O28. -/
theorem selectAndReadMoveTheCursor : Obligations.SelectAndReadMoveTheCursor := by
  intro s time r
  refine ⟨fun h => ?_, fun h => ?_⟩
  · have rule : (s.counted time).handleRequest (rxData r.dlcCode (0x10 :: r.rest)) =
        (s.counted time).selectCursor (reqByte 0x10 r 1) (reqByte 0x10 r 2) :=
      State.handleRequest_select (requestCode (code := 0x10) h rfl)
    refine ⟨fun unknown => ?_, fun id named beyond => ?_, fun id named within => ?_⟩
    · exact exec_refuses h rfl rfl (rule.trans (State.selectCursor_unknown unknown))
    · refine exec_refuses h rfl rfl (rule.trans ?_)
      rw [← named, State.selectCursor_known, if_pos beyond]
    · refine exec_answers h rfl rfl (rule.trans ?_)
      rw [← named, State.selectCursor_known, if_neg (Nat.not_le.2 within)]
      rfl
  · have rule : (s.counted time).handleRequest (rxData r.dlcCode (0x12 :: r.rest)) = (s.counted time).readWord :=
      State.handleRequest_read (requestCode (code := 0x12) h rfl)
    refine ⟨fun absent => ?_, fun x cursor beyond => ?_, fun x cursor within => ?_⟩
    · exact exec_refuses h rfl rfl (rule.trans (State.readWord_noCursor absent))
    · exact exec_refuses h rfl rfl (rule.trans ((State.readWord_cursor (s := s.counted time) cursor).trans (if_pos beyond)))
    · refine exec_answers h rfl rfl (rule.trans ((State.readWord_cursor (s := s.counted time) cursor).trans ?_))
      rw [if_neg (Nat.not_le.2 within), State.counted_table]
      rfl

section

variable {s : State} {sel : Nat}

theorem State.requestCapture_undefined (h : sel = 0 ∨ 3 < sel) : s.requestCapture sel = s.reply 0x30 .malformed [] :=
  if_pos h

theorem State.requestCapture_defined (low : 1 ≤ sel) (high : sel ≤ 3) : s.requestCapture sel =
    if s.mode.op ≠ .setup then s.reply 0x30 .refusedState []
    else ({ s with mgmt := { s.mgmt with
      capture := some ⟨decide (sel = 1 ∨ sel = 3), decide (sel = 2 ∨ sel = 3), 0, 0, 0, 0, 0⟩ } } : State).reply 0x30
        .inProgress [] := by
  have side (a b : Nat) : (sel == a || sel == b) = decide (sel = a ∨ sel = b) := (Bool.decide_or _ _).symm
  rw [State.requestCapture, if_neg (by omega)]
  simp only [side]

end

/-- Settles O32. -/
theorem captureZeroIsAcceptedInSetup : Obligations.CaptureZeroIsAcceptedInSetup := by
  intro s time r h
  have rule : (s.counted time).handleRequest (rxData r.dlcCode (0x30 :: r.rest)) =
      (s.counted time).requestCapture (reqByte 0x30 r 1) :=
    State.handleRequest_capture (requestCode (code := 0x30) h rfl)
  refine ⟨fun undefined => ?_, fun low high other => ?_, fun low high setup => ?_⟩
  · exact exec_refuses h rfl rfl (rule.trans (State.requestCapture_undefined undefined))
  · exact exec_refuses h rfl rfl (rule.trans ((State.requestCapture_defined low high).trans (if_pos other)))
  · exact exec_answers h rfl rfl (rule.trans ((State.requestCapture_defined low high).trans (if_neg (not_not_intro setup))))

/-- Settles O34. -/
theorem restartNeedsStandstillAndNeutral : Obligations.RestartNeedsStandstillAndNeutral := by
  intro s time r h
  have rule : (s.counted time).handleRequest (rxData r.dlcCode (0x3F :: r.rest)) = (s.counted time).requestRestart :=
    State.handleRequest_restart (requestCode (code := 0x3F) h rfl)
  refine ⟨fun still => ?_, fun moving => ?_⟩
  · obtain ⟨t, next, answered, mgmt⟩ := exec_answers (c := .restart time r) h rfl rfl (rule.trans (if_pos still))
    refine ⟨t, next, answered, mgmt.trans ?_⟩
    rw [answered.heard.now]
    rfl
  · exact exec_refuses h rfl rfl (rule.trans (if_neg moving))

end Sys2Proof.Machine

/-! ### LEAVE_SETUP (R169) and FAULT_ACK (R179) -/

namespace Sys2Proof.Machine

section

variable {s t u : State} {time : Time} {r : ReqFrame} {data : List Byte}

/-! ### The causes of R170 -/

theorem State.safeStopCause_iff (s : State) : s.safeStopCause = true ↔ SafeStopCause s := by
  simp only [State.safeStopCause, SafeStopCause, Bool.or_eq_true, Bool.and_eq_true, beq_iff_eq, or_assoc]

theorem State.degradedCause_iff (s : State) : s.degradedCause = true ↔ DegradedCause s := by
  simp only [State.degradedCause, DegradedCause, Bool.or_eq_true, beq_iff_eq, or_assoc]

/-- In RUN with no cause the operating state stays. -/
theorem State.parked_run (run : s.mode.op = .run) (stop : ¬ SafeStopCause s) (degraded : ¬ DegradedCause s) : s.Parked :=
  .inr (.inr (.inr (.inr (.inl ⟨run, Bool.eq_false_iff.2 (mt s.safeStopCause_iff.1 stop),
    Bool.eq_false_iff.2 (mt s.degradedCause_iff.1 degraded)⟩))))

/-! ### LEAVE_SETUP -/

theorem allCommitted_iff (ts : Tables) : allCommitted ts = true ↔ ∀ id, (ts.get id).state = .committed := by
  have mem (id : TableId) : id ∈ TableId.all := by cases id <;> decide
  simp only [allCommitted, List.all_eq_true, beq_iff_eq, mem, forall_const]

/-- The conditions of LEAVE_SETUP in SETUP. -/
def State.MayLeaveSetup (s : State) : Prop :=
  (∀ id : TableId, (s.table id).state = .committed) ∧ s.supervisor.tripped = false ∧ s.intake.record.direction = .n

theorem State.leaveSetupResult_other (h : s.mode.op ≠ .setup) : s.leaveSetupResult = .refusedState := if_pos h

theorem State.leaveSetupResult_notReady (setup : s.mode.op = .setup) (h : ¬ s.MayLeaveSetup) :
    s.leaveSetupResult = .notReady := by
  rw [State.leaveSetupResult, if_neg (not_not_intro setup), if_neg]
  rw [allCommitted_iff]
  exact h

theorem State.leaveSetupResult_ready (setup : s.mode.op = .setup) (h : s.MayLeaveSetup) : s.leaveSetupResult = .done := by
  rw [State.leaveSetupResult, if_neg (not_not_intro setup), if_pos]
  rw [allCommitted_iff]
  exact h

/-- The conditions are those at the request: the counting of its frame touches none of them. -/
theorem State.counted_leaveSetupResult (s : State) (time : Time) :
    (s.counted time).leaveSetupResult = s.leaveSetupResult := rfl

theorem State.requestRun_refused (h : s.leaveSetupResult ≠ .done) : s.requestRun = s.reply 0x03 s.leaveSetupResult [] := by
  simp only [State.requestRun, if_neg h]

theorem State.requestRun_done (h : s.leaveSetupResult = .done) : s.requestRun = (s.setOp .run).reply 0x03 .done [] := by
  simp only [State.requestRun, h, if_true]

theorem State.handleRequest_leave (first : dataAt data 0 = 0x03) : s.handleRequest data = s.requestRun := by
  simp only [State.handleRequest, first]

theorem counted_leave (h : s.Takes r 1) :
    (s.counted time).handleRequest (rxData r.dlcCode (0x03 :: r.rest)) = (s.counted time).requestRun :=
  State.handleRequest_leave (requestCode (code := 0x03) h rfl)

theorem exec_leaveSetup_refused (h : s.Takes r 1) {res : Result} (result : s.leaveSetupResult = res)
    (refused : res ≠ .done) :
    ∃ t, exec (.leaveSetup time r) s = .next t ∧ AnsweredOnly s t time 0x03 res [] ∧ t.mgmt = s.mgmt := by
  have here : (s.counted time).leaveSetupResult = res := (s.counted_leaveSetupResult time).trans result
  refine exec_refuses h rfl rfl ((counted_leave h).trans ?_)
  rw [State.requestRun_refused (here ▸ refused), here]

/-- What an accepted request answers and leaves alone stays through the events that follow. -/
theorem AnsweredToo.reacts {c : Nat} (h : AnsweredToo s u time c data) (k : Reacts u t) : AnsweredToo s t time c data where
  heard := h.heard.offered k.now k.resetting k.tLink
  record := by rw [k.intake, h.record]
  draft := by rw [k.draft]; exact h.draft
  supervisor := k.supervisor.trans h.supervisor
  vLink := k.vLink.trans h.vLink
  emission := k.emission.trans h.emission
  reply := by unfold State.Replied; rw [k.mail]; exact h.reply

/-- Accepted, LEAVE_SETUP makes the operating state RUN; with no cause present no event that the entry brings, in any order,
changes it again. -/
theorem exec_leaveSetup_done (h : s.Takes r 1) (done : s.leaveSetupResult = .done) :
    ∃ t, exec (.leaveSetup time r) s = .next t ∧ AnsweredToo s t time 0x03 [] ∧ t.intake = s.intake ∧
      t.tables = s.tables ∧ t.mgmt = s.mgmt ∧
      (¬ SafeStopCause s → ¬ DegradedCause s →
        t.mode = { s.mode with op := .run, runTimer := some (t.now + 600000 * Config.msTicks) }) := by
  have here : (s.counted time).leaveSetupResult = .done := (s.counted_leaveSetupResult time).trans done
  refine ⟨_, exec_handled h rfl rfl, ?_⟩
  rw [counted_leave h, State.requestRun_done here]
  have change := State.setOp_reacts (s.counted time) .run
  have mode : ((s.counted time).setOp .run).mode =
      { s.mode with op := .run, runTimer := some (max s.now time + 600000 * Config.msTicks) } := State.setOp_mode _ _
  have stops : ((s.counted time).setOp .run).safeStopCause = s.safeStopCause := change.causes.1
  have degrades : ((s.counted time).setOp .run).degradedCause = s.degradedCause := change.causes.2
  generalize (s.counted time).setOp .run = u at change mode stops degrades ⊢
  have answered := change.answered h.1.1 0x03 []
  have events := State.settled_reacts (u.reply 0x03 .done [])
  refine ⟨answered.reacts events, events.intake.trans change.intake, events.tables.trans change.tables,
    events.mgmt.trans change.mgmt, fun stop degraded => ?_⟩
  have stop : ¬ SafeStopCause u := by rwa [← State.safeStopCause_iff, stops, State.safeStopCause_iff]
  have degraded : ¬ DegradedCause u := by rwa [← State.degradedCause_iff, degrades, State.degradedCause_iff]
  have parked : (u.reply 0x03 .done []).Parked := State.parked_run (congrArg Mode.op mode) stop degraded
  have now := (answered.reacts events).heard.now
  rw [now]
  exact parked.settled.mode.trans mode

end

/-- Settles O27. -/
theorem leaveSetupNeedsTablesSupervisorAndNeutral : Obligations.LeaveSetupNeedsTablesSupervisorAndNeutral := by
  intro s time r h ready
  refine ⟨fun other => ?_, fun setup unready => ?_, fun setup ready => ?_⟩
  · exact exec_leaveSetup_refused h (State.leaveSetupResult_other other) nofun
  · exact exec_leaveSetup_refused h (State.leaveSetupResult_notReady setup unready) nofun
  · exact exec_leaveSetup_done h (State.leaveSetupResult_ready setup ready)

/-! ### FAULT_ACK -/

section

variable {s : State} {time : Time} {r : ReqFrame} {data : List Byte} {f : Faults} {kind index sel : Nat} {e : FaultEntry}

/-- The entry is named by a kind code and an index. -/
def FaultEntry.namedBy (kind index : Nat) (e : FaultEntry) : Bool := e.kind.code == kind && e.index == index

theorem FaultKind.ofNat?_code (k : FaultKind) : FaultKind.ofNat? k.code = some k := by
  cases k <;> rfl

theorem FaultKind.ofNat?_eq_some {n : Nat} {k : FaultKind} (h : FaultKind.ofNat? n = some k) : k.code = n := by
  unfold FaultKind.ofNat? at h
  split at h <;> cases h <;> rfl

theorem FaultKind.code_inj {j k : FaultKind} (h : j.code = k.code) : j = k :=
  Option.some.inj (by rw [← FaultKind.ofNat?_code j, h, FaultKind.ofNat?_code])

theorem FaultEntry.namedBy_code (k : FaultKind) (index : Nat) : FaultEntry.namedBy k.code index = (·.is k index) := by
  funext e
  have same : (e.kind.code == k.code) = (e.kind == k) := by
    rw [Bool.eq_iff_iff, beq_iff_eq, beq_iff_eq]
    exact ⟨FaultKind.code_inj, congrArg FaultKind.code⟩
  rw [FaultEntry.namedBy, FaultEntry.is, same]

/-- A code that is none of a fault's names no entry. -/
theorem Faults.named_eq (f : Faults) (kind index : Nat) :
    f.named kind index = f.entries.find? (FaultEntry.namedBy kind index) := by
  unfold Faults.named
  split
  next unknown =>
    refine (List.find?_eq_none.2 fun e _ named => ?_).symm
    obtain ⟨code, -⟩ := Bool.and_eq_true_iff.1 named
    rw [← eq_of_beq code, FaultKind.ofNat?_code] at unknown
    exact Option.some_ne_none _ unknown
  next k known => rw [← FaultKind.ofNat?_eq_some known, FaultEntry.namedBy_code]

theorem Faults.without_overflow (f : Faults) (p : FaultEntry → Bool) :
    (f.without p).overflow = (f.overflow && !(f.without p).entries.isEmpty) := by
  have some (es : List FaultEntry) : (es != []) = !es.isEmpty := by cases es <;> rfl
  exact congrArg (f.overflow && ·) (some _)

/-! ### The four outcomes at the Fault List (R179) -/

theorem Faults.acked_absent (h : f.entries.find? (FaultEntry.namedBy kind index) = none) :
    f.acked true kind index = (f.without fun _ => false, .done) := by
  simp only [Faults.acked, if_true, Faults.named_eq, h]

theorem Faults.acked_active (h : f.entries.find? (FaultEntry.namedBy kind index) = some e) (active : e.stored = false) :
    f.acked true kind index = (f, .refusedState) := by
  simp only [Faults.acked, if_true, Faults.named_eq, h, active, Bool.false_eq_true, if_false]

theorem Faults.acked_stored (h : f.entries.find? (FaultEntry.namedBy kind index) = some e) (stored : e.stored = true) :
    f.acked true kind index = (f.without (FaultEntry.namedBy kind index), .done) := by
  have found : FaultEntry.namedBy kind index e = true := List.find?_some h
  obtain ⟨code, place⟩ := Bool.and_eq_true_iff.1 found
  have named : FaultEntry.namedBy kind index = (·.is e.kind e.index) := by
    rw [← eq_of_beq code, ← eq_of_beq place, FaultEntry.namedBy_code]
  simp only [Faults.acked, if_true, Faults.named_eq, h, stored, ← named]

theorem Faults.acked_position (f : Faults) (one : Bool) (kind index : Nat) :
    (f.acked one kind index).1.position = f.position := by
  unfold Faults.acked
  split
  · split
    · rfl
    · split <;> rfl
  · rfl

/-- The overflow goes with the last entry. -/
theorem Faults.acked_overflow (f : Faults) (one : Bool) (kind index : Nat) :
    (f.acked one kind index).1.overflow = (f.overflow && !(f.acked one kind index).1.entries.isEmpty) := by
  cases one with
  | false => exact f.without_overflow _
  | true =>
    cases found : f.entries.find? (FaultEntry.namedBy kind index) with
    | none =>
      rw [Faults.acked_absent found]
      exact f.without_overflow _
    | some e =>
      cases stored : e.stored with
      | true =>
        rw [Faults.acked_stored found stored]
        exact f.without_overflow _
      | false =>
        have nonempty : f.entries.isEmpty = false :=
          List.isEmpty_eq_false_iff.2 (List.ne_nil_of_mem (List.mem_of_find?_eq_some found))
        rw [Faults.acked_active found stored, nonempty, Bool.not_false, Bool.and_true]

/-! ### The request -/

theorem State.handleRequest_ack (first : dataAt data 0 = 0x20) :
    s.handleRequest data = s.requestAck (dataAt data 1) (dataAt data 2) (dataAt data 3) := by
  simp only [State.handleRequest, first]

theorem State.requestAck_defined (h : sel ≤ 1) : s.requestAck sel kind index =
    ({ s with faults := (s.faults.acked (sel == 1) kind index).1 } : State).reply 0x20
      (s.faults.acked (sel == 1) kind index).2 [byte1 (s.faults.acked (sel == 1) kind index).1.entries.length] := by
  rw [State.requestAck, if_neg (Nat.not_lt.2 h)]

theorem State.reply_withFaults (s : State) (x : Faults) (n : Nat) (res : Result) (bytes : List Byte) :
    ({ s with faults := x } : State).reply n res bytes = { s.reply n res bytes with faults := x } := rfl

/-- A request whose rule gives a reply, after at most a change of the Fault List. -/
theorem exec_replies_faults {c : Instr} {m : Nat} {code : Byte} (h : s.Takes r m)
    (request : c.request = some (time, code, r)) (least : minimumDlc code.toNat = some m) {x : Faults} {n : Nat}
    {res : Result} {bytes : List Byte}
    (answer : (s.counted time).handleRequest (rxData r.dlcCode (code :: r.rest)) =
      ({ s.counted time with faults := x } : State).reply n res bytes) :
    ∃ t, exec c s = .next t ∧ HeardOnT s t time ∧ SameControl s t ∧ t.tables = s.tables ∧ t.mgmt = s.mgmt ∧
      t.faults = x ∧ t.Replied n res bytes := by
  have quiet : ((s.counted time).reply n res bytes).notices = [] := h.1.2
  obtain ⟨answered, mgmt⟩ := State.counted_reply (time := time) h.1 n res bytes
  rw [State.settled_nil quiet] at answered mgmt
  refine ⟨_, exec_handled h request least, ?_⟩
  rw [answer, State.reply_withFaults]
  generalize (s.counted time).reply n res bytes = u at quiet answered mgmt ⊢
  rw [State.settled_nil (s := { u with faults := x }) quiet]
  exact ⟨{ answered.heard with }, { answered.same with }, answered.tables, mgmt, rfl, answered.reply⟩

end

/-- Settles O31: the four outcomes at the Fault List, on the list after the request's frame. -/
theorem faultAckRemovesStoredEntries : Obligations.FaultAckRemovesStoredEntries := by
  intro s time r h f sel named
  have rule : (s.counted time).handleRequest (rxData r.dlcCode (0x20 :: r.rest)) =
      (s.counted time).requestAck sel (reqByte 0x20 r 2) (reqByte 0x20 r 3) :=
    State.handleRequest_ack (requestCode (code := 0x20) h rfl)
  refine ⟨fun undefined => exec_refuses h rfl rfl (rule.trans (if_pos undefined)), fun defined => ?_⟩
  obtain ⟨t, next, heard, same, tables, mgmt, faults, replied⟩ :=
    exec_replies_faults (c := .faultAck time r) h rfl rfl (rule.trans (State.requestAck_defined defined))
  have acked : t.faults = (f.acked (sel == 1) (reqByte 0x20 r 2) (reqByte 0x20 r 3)).1 := faults
  have reply : t.Replied 0x20 (f.acked (sel == 1) (reqByte 0x20 r 2) (reqByte 0x20 r 3)).2
      [byte1 t.faults.entries.length] := by
    rw [acked]
    exact replied
  refine ⟨t, next, heard, same, tables, mgmt, ?_, ?_, fun all => ?_, fun e one found stored => ?_, fun e one found active => ?_,
    fun one absent => ?_⟩
  · rw [acked, Faults.acked_position]
  · rw [acked, Faults.acked_overflow]
  · rw [all] at acked reply
    exact ⟨congrArg Faults.entries acked, reply⟩
  · rw [one, beq_self_eq_true, Faults.acked_stored found stored] at acked reply
    exact ⟨congrArg Faults.entries acked, reply⟩
  · rw [one, beq_self_eq_true, Faults.acked_active found active] at acked reply
    exact ⟨congrArg Faults.entries acked, reply⟩
  · rw [one, beq_self_eq_true, Faults.acked_absent absent] at acked reply
    refine ⟨(congrArg Faults.entries acked).trans ?_, reply⟩
    exact List.filter_eq_self.2 fun _ _ => rfl

end Sys2Proof.Machine

/-! ### COMMIT_TABLE (R185): the CRC, the checks of each table's own rule in their order, and the commit -/

namespace Sys2Proof.Machine

/-! ### Checks made one after another -/

section

variable {rest : List (Nat × (Nat → Prop) × Nat)} {count add : Nat} {bad : Nat → Prop} {b : Nat → Bool} {r : Option Nat}

/-- One check more before others: its first failure, and else theirs. -/
theorem firstFailure_cons (same : ∀ n, n < count → (b n = true ↔ bad n)) (others : FirstFailure rest r) :
    FirstFailure ((count, bad, add) :: rest) ((failsAt (List.range count) b (· + add)).or r) := by
  refine ⟨fun n lt fails passed => ?_, fun passed => ?_⟩
  · have found : (List.range count).find? b = some n := List.find?_range_eq_some.2
      ⟨(same n lt).2 fails, List.mem_range.2 lt, fun k before =>
        congrArg (!·) (Bool.eq_false_iff.2 (mt (same k (Nat.lt_trans before lt)).1 (passed k before)))⟩
    rw [failsAt, found, Option.map_some, Option.some_or]
  · have none : (List.range count).find? b = none := List.find?_range_eq_none.2 fun n lt =>
      congrArg (!·) (Bool.eq_false_iff.2 (mt (same n lt).1 (passed n lt)))
    rw [failsAt, none, Option.map_none, Option.none_or]
    exact others

/-- A check of one thing. -/
theorem firstFailure_one {p : Prop} {c : Bool} (same : c = true ↔ p) (others : FirstFailure rest r) :
    FirstFailure ((1, fun _ => p, add) :: rest) ((if c then some add else none).or r) := by
  refine ⟨fun n lt fails _ => ?_, fun passed => ?_⟩
  · rw [if_pos (same.2 fails), Option.some_or, Nat.lt_one_iff.1 lt, Nat.zero_add]
  · rw [if_neg (mt same.1 (passed 0 Nat.one_pos)), Option.none_or]
    exact others

/-- With no check left nothing fails. -/
theorem firstFailure_nil : FirstFailure [] none := rfl

theorem firstOf_cons (x : Option Nat) (xs : List (Option Nat)) : firstOf (x :: xs) = x.or (firstOf xs) := by
  cases x <;> rfl

theorem firstFail_cons (c : Bool) (i : Nat) (xs : List (Bool × Nat)) :
    firstFail ((c, i) :: xs) = (if c then some i else none).or (firstFail xs) := by
  cases c <;> rfl

theorem firstOf_nil : firstOf [] = none := rfl

theorem firstFail_nil : firstFail [] = none := rfl

theorem failsAt_id (l : List Nat) (b : Nat → Bool) : failsAt l b id = failsAt l b (· + 0) := rfl

end

theorem outside_iff {lo hi v : Nat} : outside lo hi v = true ↔ ¬(lo ≤ v ∧ v ≤ hi) := by
  simp only [outside, Bool.or_eq_true, decide_eq_true_iff]
  omega

theorem byteOf_lt (w : TWord) (k : Nat) : byteOf w k < 256 := Nat.mod_lt _ (by decide)

/-! ### The CRC (R185) -/

theorem crcShift_toNat (c : BitVec 16) :
    (crcShift c).toNat = (2 * c.toNat % 65536) ^^^ (if 32768 ≤ c.toNat then 0x1021 else 0) := by
  have shifted : (c <<< 1).toNat = 2 * c.toNat % 65536 := by
    rw [BitVec.toNat_shiftLeft, Nat.shiftLeft_eq, Nat.mul_comm]
  have top : c.msb = decide (32768 ≤ c.toNat) := BitVec.msb_eq_decide c
  simp only [crcShift, top, decide_eq_true_iff]
  split
  · rw [BitVec.toNat_xor, shifted]
    rfl
  · rw [shifted, Nat.xor_zero]

theorem crcByte_eq (c : BitVec 16) (b : Byte) : crcByte c b = crcShift (crcShift (crcShift (crcShift (crcShift (crcShift
    (crcShift (crcShift (c ^^^ BitVec.ofNat 16 (256 * b.toNat))))))))) := by
  have upper : b.setWidth 16 <<< 8 = BitVec.ofNat 16 (256 * b.toNat) := by
    have := b.isLt
    refine BitVec.eq_of_toNat_eq ?_
    rw [BitVec.toNat_shiftLeft, BitVec.toNat_setWidth, BitVec.toNat_ofNat, Nat.shiftLeft_eq]
    omega
  rw [crcByte, upper]
  rfl

theorem crcOf_append (ws : List TWord) (w : TWord) :
    crcOf (ws ++ [w]) = ((List.range 6).map fun k => BitVec.ofNat 8 (byteOf w k)).foldl crcByte (crcOf ws) := by
  rw [crcOf, List.flatMap_append, List.foldl_append, List.flatMap_singleton]
  rfl

theorem crcLaw : CrcLaw := ⟨crcShift_toNat, crcByte_eq, rfl, crcOf_append⟩

/-! ### Tables 7 to 10 and 6 -/

theorem checkAxle_firstFailure (map ws : List TWord) : FirstFailure (commitChecks .axle map ws) (checkAxle ws) := by
  simp only [checkAxle, firstFail_cons, firstFail_nil]
  refine firstFailure_one ?_ (firstFailure_one ?_ firstFailure_nil)
  all_goals
    simp only [Bool.or_eq_true, outside_iff, decide_eq_true_iff]
    omega

theorem checkHitch_firstFailure (map ws : List TWord) : FirstFailure (commitChecks .hitch map ws) (checkHitch ws) := by
  have gainL : (hitchTable ws).gainL < 256 := byteOf_lt _ _
  have gainR : (hitchTable ws).gainR < 256 := byteOf_lt _ _
  have kH : (hitchTable ws).kH < 256 := byteOf_lt _ _
  have kS : (hitchTable ws).kS < 256 := byteOf_lt _ _
  simp only [checkHitch, firstFail_cons, firstFail_nil]
  refine firstFailure_one ?_ (firstFailure_one ?_ (firstFailure_one ?_ (firstFailure_one outside_iff firstFailure_nil)))
  all_goals
    simp only [Bool.or_eq_true, outside_iff]
    omega

theorem checkSupervision_firstFailure (map ws : List TWord) :
    FirstFailure (commitChecks .supervision map ws) (checkSupervision ws) := by
  have recovery : (supervisionTable ws).recovery < 256 := byteOf_lt _ _
  simp only [checkSupervision, firstFail_cons, firstFail_nil]
  refine firstFailure_one ?_ firstFailure_nil
  simp only [Bool.or_eq_true, outside_iff, decide_eq_true_iff]
  omega

/-- The points but the first, each with the point before it. -/
theorem failsAt_later (b : Nat → Bool) :
    failsAt (List.range 8).tail b (· + 2) = failsAt (List.range 7) (fun i => b (i + 1)) (· + 3) := by
  have later : (List.range 8).tail = (List.range 7).map (· + 1) := by decide
  rw [failsAt, later, List.find?_map, Option.map_map]
  rfl

theorem checkTrailer_firstFailure (map ws : List TWord) : FirstFailure (commitChecks .trailer map ws) (checkTrailer ws) := by
  simp only [checkTrailer, firstOf_cons, firstFail_cons, firstOf_nil, firstFail_nil, Option.or_assoc, Option.none_or,
    failsAt_later, Nat.add_sub_cancel]
  refine firstFailure_one ?_ (firstFailure_one ?_ (firstFailure_one ?_ (firstFailure_cons (fun i _ => ?_) (firstFailure_one ?_
    (firstFailure_cons (fun i _ => ?_) (firstFailure_cons (fun i _ => ?_) (firstFailure_cons (fun i _ => ?_)
      firstFailure_nil)))))))
  · simp only [Bool.or_eq_true, outside_iff]
    omega
  · simp only [Bool.or_eq_true, outside_iff]
    omega
  · exact decide_eq_true_iff
  · simp only [Bool.or_eq_true, outside_iff, curvePoint]
    omega
  · exact bne_iff_ne
  · exact decide_eq_true_iff
  · exact decide_eq_true_iff
  · exact decide_eq_true_iff

theorem checkSchedule_firstFailure (map ws : List TWord) :
    FirstFailure (commitChecks .shiftSchedule map ws) (checkSchedule ws) := by
  simp only [checkSchedule, firstOf_cons, firstFail_cons, firstOf_nil, firstFail_nil, Option.or_assoc, Option.none_or]
  refine firstFailure_one ?_ (firstFailure_cons (fun g _ => ?_) firstFailure_nil)
  all_goals
    simp only [scheduleHeaderBad, Bool.or_eq_true, outside_iff, decide_eq_true_iff]
    omega

/-! ### Tables 2, 3 and 5 -/

theorem checkSlotTable_firstFailure (map ws : List TWord) :
    FirstFailure (commitChecks .slotTable map ws) (checkSlotTable ws) := by
  rw [checkSlotTable, failsAt_id, ← Option.or_none (o := failsAt _ _ _)]
  refine firstFailure_cons (fun n _ => ?_) firstFailure_nil
  simp only [Bool.or_eq_true, decide_eq_true_iff]

theorem positionFails_iff (map ws : List TWord) (pos : Nat) : positionFails map ws pos = true ↔ PositionBad map ws pos := by
  simp only [positionFails, PositionBad, Bool.or_eq_true, Bool.and_eq_true, decide_eq_true_iff, beq_iff_eq, bne_iff_ne,
    List.any_eq_true, List.mem_range, or_assoc, and_assoc]
  exact Iff.rfl

theorem checkEmission_firstFailure (map ws : List TWord) :
    FirstFailure (commitChecks .emission map ws) (checkEmission map ws) := by
  rw [checkEmission, failsAt_id, ← Option.or_none (o := failsAt _ _ _)]
  exact firstFailure_cons (fun pos _ => positionFails_iff map ws pos) firstFailure_nil

theorem checkClutch_firstFailure (map ws : List TWord) : FirstFailure (commitChecks .clutch map ws) (checkClutch ws) := by
  simp only [checkClutch, firstOf_cons, firstFail_cons, firstOf_nil, firstFail_nil, Option.or_assoc, Option.none_or]
  refine firstFailure_one ?_ (firstFailure_cons (fun c _ => ?_) firstFailure_nil)
  · simp only [clutchHeaderBad, Bool.or_eq_true, outside_iff]
    omega
  · simp only [profileBad, fillBad, Bool.or_eq_true, Bool.and_eq_true, outside_iff, decide_eq_true_iff, bne_iff_ne]
    omega

/-! ### Table 4 -/

/-- The last number below `n` with a property. -/
theorem getLast?_filter_range {n k : Nat} {p : Nat → Bool} : ((List.range n).filter p).getLast? = some k ↔
    k < n ∧ p k = true ∧ ∀ j, k < j → j < n → p j = false := by
  induction n with
  | zero => simp
  | succ n ih =>
    rw [List.range_succ, List.filter_append]
    cases h : p n with
    | true =>
      rw [List.filter_cons_of_pos h, List.filter_nil, List.getLast?_concat, Option.some.injEq]
      constructor
      · rintro rfl
        exact ⟨Nat.lt_succ_self _, h, fun j above below => absurd below (by omega)⟩
      · rintro ⟨lt, -, last⟩
        refine Decidable.byContradiction fun other => ?_
        exact Bool.false_ne_true ((last n (by omega) (Nat.lt_succ_self n)).symm.trans h)
    | false =>
      rw [List.filter_cons_of_neg (Bool.eq_false_iff.1 h), List.filter_nil, List.append_nil, ih]
      constructor
      · rintro ⟨lt, has, last⟩
        refine ⟨Nat.lt_succ_of_lt lt, has, fun j above below => ?_⟩
        rcases Nat.lt_succ_iff_lt_or_eq.1 below with before | rfl
        · exact last j above before
        · exact h
      · rintro ⟨lt, has, last⟩
        have other : k ≠ n := fun same => Bool.false_ne_true (h.symm.trans (same ▸ has))
        exact ⟨by omega, has, fun j above below => last j above (Nat.lt_succ_of_lt below)⟩

theorem gearHeaderBad_iff (h : GearHeader) : gearHeaderBad h = true ↔
    ¬(h.startF ≤ 11 ∧ 12 ≤ h.startR ∧ h.startR ≤ 19 ∧ 1 ≤ h.k ∧ h.k ≤ 6 ∧ h.kHl ≤ 3 ∧ h.speedLimit ≤ 6000 ∧
      500 ≤ h.pendingMs ∧ h.pendingMs ≤ 5000) := by
  simp only [gearHeaderBad, Bool.or_eq_true, outside_iff]
  omega

theorem gearCodeBad_iff (e : GearEntry) : gearCodeBad e = true ↔
    3 < e.speed ∨ 2 < e.range ∨ 1 < e.direction ∨ e.enabled = true ∧ (e.ratio = 0 ∨ 4096 < e.ratio) := by
  have upTo (hi v : Nat) : outside 0 hi v = true ↔ hi < v := by rw [outside_iff]; omega
  have ratio : outside 1 4096 e.ratio = true ↔ e.ratio = 0 ∨ 4096 < e.ratio := by rw [outside_iff]; omega
  simp only [gearCodeBad, Bool.or_eq_true, Bool.and_eq_true, upTo, ratio, or_assoc]

theorem mem_enabledBefore {ws : List TWord} {g k : Nat} :
    k ∈ enabledBefore ws g ↔ k < g ∧ (gearEntry ws k).enabled = true := by
  rw [enabledBefore, List.mem_filter, List.mem_range]

theorem sameSet_iff {a b : GearEntry} :
    sameSet a b = true ↔ a.speed = b.speed ∧ a.range = b.range ∧ a.direction = b.direction := by
  simp only [sameSet, Bool.and_eq_true, beq_iff_eq, and_assoc]

/-- Between two gears of a direction there are only gears of it. -/
theorem directionOf_between {k j g : Nat} (above : k < j) (below : j < g) (same : directionOf k = directionOf g) :
    directionOf j = directionOf g := by
  unfold directionOf at *
  by_cases forward : g < 12
  · rw [if_pos forward, if_pos (Nat.lt_trans below forward)]
  · have reverse : ¬k < 12 := fun low => by
      rw [if_pos low, if_neg forward] at same
      cases same
    rw [if_neg forward, if_neg fun low => reverse (Nat.lt_trans above low)]

/-- The next lower enabled entry of the direction is the last one before it that is enabled and of the direction. -/
theorem ratioBad_iff {ws : List TWord} {g : Nat} : ratioBad ws g = true ↔
    ∃ k, k < g ∧ directionOf k = directionOf g ∧ (gearEntry ws k).enabled = true ∧
      (∀ j, k < j → j < g → (gearEntry ws j).enabled = false) ∧ (gearEntry ws g).ratio ≤ (gearEntry ws k).ratio := by
  have next (k : Nat) :
      ((enabledBefore ws g).filter fun k => directionOf k == directionOf g).getLast? = some k ↔
        k < g ∧ directionOf k = directionOf g ∧ (gearEntry ws k).enabled = true ∧
          ∀ j, k < j → j < g → (gearEntry ws j).enabled = false := by
    rw [enabledBefore, List.filter_filter, getLast?_filter_range]
    simp only [Bool.and_eq_true, beq_iff_eq, Bool.and_eq_false_iff, beq_eq_false_iff_ne, and_assoc]
    constructor
    · rintro ⟨lt, same, enabled, last⟩
      exact ⟨lt, same, enabled, fun j above below =>
        (last j above below).resolve_left (not_not_intro (directionOf_between above below same))⟩
    · rintro ⟨lt, same, enabled, last⟩
      exact ⟨lt, same, enabled, fun j above below => .inr (last j above below)⟩
  unfold ratioBad
  cases found : ((enabledBefore ws g).filter fun k => directionOf k == directionOf g).getLast? with
  | none =>
    refine ⟨nofun, fun ⟨k, lt, same, enabled, last, _⟩ => ?_⟩
    rw [(next k).2 ⟨lt, same, enabled, last⟩] at found
    exact nomatch found
  | some k =>
    obtain ⟨lt, same, enabled, last⟩ := (next k).1 found
    refine decide_eq_true_iff.trans ⟨fun low => ⟨k, lt, same, enabled, last, low⟩, ?_⟩
    rintro ⟨k', lt', same', enabled', last', low⟩
    have it : some k' = some k := ((next k').2 ⟨lt', same', enabled', last'⟩).symm.trans found
    exact Option.some.inj it ▸ low

theorem checkGear_firstFailure (map ws : List TWord) : FirstFailure (commitChecks .gear map ws) (checkGear ws) := by
  simp only [checkGear, firstOf_cons, firstFail_cons, firstOf_nil, firstFail_nil, Option.or_assoc, Option.none_or]
  refine firstFailure_one (gearHeaderBad_iff _) (firstFailure_cons (fun g _ => gearCodeBad_iff _) (firstFailure_cons
    (fun g _ => bne_iff_ne) (firstFailure_cons (fun g _ => ?_) (firstFailure_cons (fun g _ => ?_) (firstFailure_one ?_
      (firstFailure_one ?_ firstFailure_nil))))))
  · simp only [Bool.and_eq_true, List.any_eq_true, mem_enabledBefore, sameSet_iff, and_assoc]
  · exact Bool.and_eq_true_iff.trans (and_congr_right fun _ => ratioBad_iff)
  · exact Iff.of_eq (Bool.not_eq_true' _)
  · exact Iff.of_eq (Bool.not_eq_true' _)
/-! ### Table 1 -/

/-- The slots that no entry has to feed: two of the first seven. -/
theorem failsAt_required (b : Nat → Bool) : failsAt [0, 1, 2, 5, 6] b (48 + ·) =
    failsAt (List.range 7) (fun i => decide (decide (i ∉ [3, 4]) = true ∧ b i = true)) (· + 48) := by
  have required : [0, 1, 2, 5, 6] = (List.range 7).filter fun i => decide (i ∉ [3, 4]) := by decide
  have index : (48 + ·) = (· + 48 : Nat → Nat) := funext fun _ => Nat.add_comm _ _
  rw [failsAt, required, List.find?_filter, index]
  rfl

theorem repeated_iff {l : List Nat} : repeated l = true ↔ ¬ l.Nodup := by
  induction l with
  | nil => simp [repeated]
  | cons x xs ih => rw [repeated, Bool.or_eq_true, ih, List.contains_iff_mem, List.nodup_cons,
    Classical.not_and_iff_not_or_not, Classical.not_not]

theorem mem_entrySlots {ws : List TWord} {n i : Nat} :
    i ∈ entrySlots ws n ↔ ∃ x ∈ (mapEntry ws n).extractions, x.slot.val = i := List.mem_map

theorem mem_earlierSlots {ws : List TWord} {n i : Nat} :
    i ∈ earlierSlots ws n ↔ ∃ k, k < n ∧ kindCode ws k ≠ 0 ∧ i ∈ entrySlots ws k := by
  simp only [earlierSlots, List.mem_flatMap, List.mem_filter, List.mem_range, bne_iff_ne, and_assoc]

/-- An entry that feeds no slot twice. -/
theorem entrySlots_nodup {ws : List TWord} {n : Nat} :
    (entrySlots ws n).Nodup ↔ ((mapEntry ws n).extractions.map (·.slot)).Nodup := by
  have slots : entrySlots ws n = ((mapEntry ws n).extractions.map (·.slot)).map Fin.val := by
    rw [List.map_map]
    rfl
  rw [slots]
  exact List.pairwise_map.trans ⟨List.Pairwise.imp fun ne same => ne (congrArg Fin.val same),
    List.Pairwise.imp fun ne same => ne (Fin.eq_of_val_eq same)⟩

/-- The entry feeds a slot that an earlier one feeds. -/
theorem sharesSlot_iff {ws : List TWord} {n : Nat} : (entrySlots ws n).any (earlierSlots ws n).contains = true ↔
    ∃ i k, k < n ∧ kindCode ws k ≠ 0 ∧ i ∈ entrySlots ws k ∧ i ∈ entrySlots ws n := by
  simp only [List.any_eq_true, List.contains_iff_mem, mem_earlierSlots]
  constructor
  · rintro ⟨i, own, k, lt, used, other⟩
    exact ⟨i, k, lt, used, other, own⟩
  · rintro ⟨i, k, lt, used, other, own⟩
    exact ⟨i, own, k, lt, used, other⟩

theorem entryRangeBad_iff {ws : List TWord} {n : Nat} : entryRangeBad ws n = true ↔
    kindCode ws n = 3 ∨ 1 < linkCode ws n ∨ 0x7FF < (mapEntry ws n).ident ∨ 8 < (mapEntry ws n).minDlc ∨
      (mapEntry ws n).timeout = 0 ∨ 3 < byteOf (wordAt ws (4 * n)) 5 ∨ ∃ x ∈ (mapEntry ws n).extractions, x.mult = 0 := by
  simp only [entryRangeBad, Bool.or_eq_true, beq_iff_eq, decide_eq_true_iff, List.any_eq_true, or_assoc]

theorem entryFails_iff {ws : List TWord} {n : Nat} : entryFails ws n = true ↔ MapEntryBad ws n := by
  have used {k : Nat} : kindCode ws k ≠ 0 ∧ kindCode ws k = 2 ↔ kindCode ws k = 2 := by omega
  have ends (x : Extraction) : decide (8 < x.start + x.width) = true ↔ 8 < x.start + (if x.wide then 2 else 1) :=
    decide_eq_true_iff
  simp only [entryFails, MapEntryBad, entryRangeBad_iff, sharesSlot_iff, repeated_iff, entrySlots_nodup, Bool.and_eq_true,
    Bool.or_eq_true, bne_iff_ne, beq_iff_eq]
  simp only [List.any_eq_true, List.mem_filter, List.mem_range, Bool.and_eq_true, bne_iff_ne, beq_iff_eq, ends,
    decide_eq_true_iff, mem_entrySlots, or_assoc, and_assoc, used]

theorem slotFed_iff {ws : List TWord} {i : Nat} : slotFed ws i = false ↔
    ∀ n, n < 48 → kindCode ws n = 1 → ∀ x ∈ (mapEntry ws n).extractions, x.slot.val ≠ i := by
  simp only [slotFed, List.any_eq_false, List.mem_range, Bool.and_eq_true, beq_iff_eq, List.contains_iff_mem,
    mem_entrySlots, not_and, not_exists, ne_eq]

theorem checkIntakeMap_firstFailure (map ws : List TWord) :
    FirstFailure (commitChecks .intakeMap map ws) (checkIntakeMap ws) := by
  simp only [checkIntakeMap, firstOf_cons, firstOf_nil, failsAt_id, failsAt_required]
  refine firstFailure_cons (fun n _ => entryFails_iff) (firstFailure_cons (fun i _ => ?_) firstFailure_nil)
  rw [decide_eq_true_iff, decide_eq_true_iff, Bool.not_eq_true', slotFed_iff]

/-- Every table is checked as its rule says. -/
theorem commitCheck_firstFailure (id : TableId) (map ws : List TWord) :
    FirstFailure (commitChecks id map ws) (commitCheck id map ws) := by
  cases id with
  | intakeMap => exact checkIntakeMap_firstFailure map ws
  | slotTable => exact checkSlotTable_firstFailure map ws
  | emission => exact checkEmission_firstFailure map ws
  | gear => exact checkGear_firstFailure map ws
  | clutch => exact checkClutch_firstFailure map ws
  | shiftSchedule => exact checkSchedule_firstFailure map ws
  | axle => exact checkAxle_firstFailure map ws
  | hitch => exact checkHitch_firstFailure map ws
  | trailer => exact checkTrailer_firstFailure map ws
  | supervision => exact checkSupervision_firstFailure map ws

/-! ### The request -/

section

variable {s : State} {time : Time} {r : ReqFrame} {data : List Byte} {id : TableId} {n crc : Nat}

theorem State.handleRequest_commit (first : dataAt data 0 = 0x13) :
    s.handleRequest data = s.requestCommit (dataAt data 1) (dataAt data 2 + dataAt data 3 * 256) := by
  simp only [State.handleRequest, first]

theorem State.requestCommit_other (h : s.mode.op ≠ .setup) : s.requestCommit n crc = s.reply 0x13 .refusedState [] :=
  if_pos h

theorem State.requestCommit_unknown (setup : s.mode.op = .setup) (h : ∀ id : TableId, id.toNat ≠ n) :
    s.requestCommit n crc = s.reply 0x13 .badTableId [] := by
  simp only [State.requestCommit, if_neg (not_not_intro setup), TableId.ofNat?_eq_none h]

/-- The CRC, then the content. -/
theorem State.requestCommit_known (setup : s.mode.op = .setup) : s.requestCommit id.toNat crc =
    if (crcOf (s.table id).loaded).toNat ≠ crc then s.reply 0x13 .crcMismatch []
    else match commitCheck id (s.inUse .intakeMap) (s.table id).loaded with
      | some i => s.reply 0x13 .inconsistent [byte1 i]
      | none => (s.commitTable id).reply 0x13 .done [byte1 id.toNat] := by
  simp only [State.requestCommit, if_neg (not_not_intro setup), TableId.ofNat?_toNat] <;> rfl

/-- A commit that passes: what it brings, in SETUP, does not change the operating state. -/
theorem State.commit_settled (h : s.Ready) (setup : s.mode.op = .setup) (bytes : List Byte) :
    let t := (((s.counted time).commitTable id).reply 0x13 .done bytes).settled
    AnsweredToo s t time 0x13 bytes ∧ t.mgmt = s.mgmt ∧ t.mode = s.mode ∧
      t.tables = s.tables.put id ⟨.committed, (s.table id).loaded⟩ := by
  obtain ⟨slots, map, faults, change⟩ :=
    ((s.counted time).setTable id ⟨.committed, ((s.counted time).table id).loaded⟩).tableChanged_acts id
      ((s.counted time).inUse id)
  have mode : ((s.counted time).commitTable id).mode = s.mode := change.mode
  have mgmt : ((s.counted time).commitTable id).mgmt = s.mgmt := change.mgmt
  have intake : ((s.counted time).commitTable id).intake = { s.intake with slots := slots, mapBefore := map } := change.intake
  have tables : ((s.counted time).commitTable id).tables = s.tables.put id ⟨.committed, (s.table id).loaded⟩ := by
    rw [← State.counted_table s time]
    exact change.tables
  have answered : AnsweredToo s (((s.counted time).commitTable id).reply 0x13 .done bytes) time 0x13 bytes := {
    heard := ((State.counted_heard h.1).offered (t := (s.counted time).commitTable id) change.now change.resetting
      change.tLink).replied _ _ _
    record := by
      show ((s.counted time).commitTable id).intake.record = s.intake.record
      rw [intake]
    draft := by
      have draft : (((s.counted time).commitTable id).reply 0x13 .done bytes).draft = s.draft.count (time - s.now) :=
        change.draft
      rw [draft]
      rfl
    supervisor := change.supervisor
    vLink := change.vLink
    emission := change.emission
    reply := rfl }
  generalize (s.counted time).commitTable id = u at mode mgmt tables answered
  have still : (u.reply 0x13 .done bytes).mode.op.still = true := by
    show u.mode.op.still = true
    rw [mode, setup]
    rfl
  have events : Acts (u.reply 0x13 .done bytes) (u.reply 0x13 .done bytes).settled := State.settled_still (.refl _) still
  exact ⟨answered.acts events, events.mgmt.trans mgmt, events.mode.trans mode, events.tables.trans tables⟩

end

/-- Settles O30. -/
theorem commitTableChecksCrcAndContent : Obligations.CommitTableChecksCrcAndContent := by
  refine ⟨fun s time r h => ?_, crcLaw, commitCheck_firstFailure⟩
  intro id crc refused
  have swapped : reqByte 0x13 r 2 + reqByte 0x13 r 3 * 256 = crc := by rw [Nat.mul_comm]
  have rule : (s.counted time).handleRequest (rxData r.dlcCode (0x13 :: r.rest)) = (s.counted time).requestCommit id crc :=
    swapped ▸ State.handleRequest_commit (requestCode (code := 0x13) h rfl)
  refine ⟨fun other => ?_, fun setup unknown => ?_, fun setup tb named differs => ?_, fun setup tb named same => ?_⟩
  · exact exec_refuses h rfl rfl (rule.trans (State.requestCommit_other other))
  · exact exec_refuses h rfl rfl (rule.trans (State.requestCommit_unknown setup unknown))
  · have known := State.requestCommit_known (s := s.counted time) (id := tb) (crc := crc) setup
    rw [named, State.counted_table, if_pos differs] at known
    exact exec_refuses h rfl rfl (rule.trans known)
  · have known := State.requestCommit_known (s := s.counted time) (id := tb) (crc := crc) setup
    rw [named, State.counted_table, if_neg (not_not_intro same)] at known
    refine ⟨fun i fails => ?_, fun passes => ?_⟩
    · have check : commitCheck tb ((s.counted time).inUse .intakeMap) (s.table tb).loaded = some i := fails
      rw [check] at known
      exact exec_refuses h rfl rfl (rule.trans known)
    · have check : commitCheck tb ((s.counted time).inUse .intakeMap) (s.table tb).loaded = none := passes
      rw [check] at known
      refine ⟨_, exec_handled (c := .commitTable time r) h rfl rfl, ?_⟩
      rw [rule, known]
      exact State.commit_settled h.1 setup _

end Sys2Proof.Machine

/-! ### Links (chapter 10): the transmit choice, the counts and the error states, transmission, the link timers -/

namespace Sys2Proof.Machine

section

variable {s t : State} {l : Link} {c : LinkCtl} {xs ys : List (OfferSource × Frame)} {x y : OfferSource × Frame}

/-! ### The transmit choice (R163) -/

theorem lowest_cons (x : OfferSource × Frame) (xs : List (OfferSource × Frame)) : lowest (x :: xs) =
    match lowest xs with
    | none => some x
    | some y => if x.2.ident ≤ y.2.ident then some x else some y := rfl

/-- The lowest identifier of some candidates. -/
theorem lowest_some (h : lowest xs = some y) : y ∈ xs ∧ ∀ x ∈ xs, y.2.ident ≤ x.2.ident := by
  induction xs generalizing y with
  | nil => cases h
  | cons x xs ih =>
    rw [lowest_cons] at h
    split at h
    next none =>
      cases h
      have empty : xs = [] := by
        cases xs with
        | nil => rfl
        | cons z zs =>
          rw [lowest_cons] at none
          split at none
          · cases none
          · split at none <;> cases none
      subst empty
      exact ⟨List.mem_cons_self, fun z hz => List.mem_singleton.1 hz ▸ Nat.le_refl _⟩
    next z found =>
      obtain ⟨mem, least⟩ := ih found
      split at h
      next low =>
        cases h
        exact ⟨List.mem_cons_self, List.forall_mem_cons.2 ⟨Nat.le_refl _, fun a ha => Nat.le_trans low (least a ha)⟩⟩
      next high =>
        cases h
        exact ⟨List.mem_cons_of_mem _ mem, List.forall_mem_cons.2 ⟨Nat.le_of_not_le high, least⟩⟩

theorem lowest_ne_none (h : xs ≠ []) : ∃ y, lowest xs = some y := by
  cases xs with
  | nil => exact absurd rfl h
  | cons x xs =>
    rw [lowest_cons]
    split
    · exact ⟨_, rfl⟩
    · split <;> exact ⟨_, rfl⟩

/-- Of two candidates that share an identifier the earlier is taken: a later one is below all earlier ones. -/
theorem lowest_append (h : lowest (xs ++ ys) = some y) : y ∈ xs ∨ y ∈ ys ∧ ∀ x ∈ xs, y.2.ident < x.2.ident := by
  induction xs generalizing y with
  | nil => exact .inr ⟨(lowest_some h).1, nofun⟩
  | cons x xs ih =>
    rw [List.cons_append, lowest_cons] at h
    split at h
    next => cases h; exact .inl List.mem_cons_self
    next z found =>
      split at h
      next => cases h; exact .inl List.mem_cons_self
      next high =>
        cases h
        rcases ih found with mem | ⟨mem, below⟩
        · exact .inl (List.mem_cons_of_mem _ mem)
        · exact .inr ⟨mem, List.forall_mem_cons.2 ⟨Nat.lt_of_not_le high, below⟩⟩

theorem MailboxId.mem_all (id : MailboxId) : id ∈ MailboxId.all := by
  cases id <;> decide

/-- The candidates among the mailboxes. -/
theorem State.mem_pendingMail {src : OfferSource} {f : Frame} : (src, f) ∈ s.pendingMail l ↔
    ∃ id data, src = .mailbox id ∧ id.link = l ∧ s.mail.get id = ⟨some data, true⟩ ∧
      f = ⟨mailboxIdent (s.inUse .emission) id, data⟩ := by
  simp only [State.pendingMail, List.mem_filterMap]
  constructor
  · rintro ⟨id, -, candidate⟩
    cases content : (s.mail.get id).content with
    | none =>
      rw [content] at candidate
      cases candidate
    | some data =>
      rw [content] at candidate
      simp only at candidate
      split at candidate
      next pending =>
        cases candidate
        exact ⟨id, data, rfl, pending.1, by rw [← content, ← pending.2], rfl⟩
      next => cases candidate
  · rintro ⟨id, data, rfl, link, box, rfl⟩
    refine ⟨id, MailboxId.mem_all id, ?_⟩
    rw [box]
    exact if_pos ⟨link, rfl⟩

theorem State.mem_candidates {src : OfferSource} {f : Frame} : (src, f) ∈ s.candidates l ↔ Offered s l src f := by
  simp only [State.candidates, List.mem_append, State.mem_pendingMail, Offered, List.mem_map, Option.mem_toList,
    Prod.mk.injEq]
  refine or_congr_right ⟨?_, ?_⟩
  · rintro ⟨g, head, rfl, rfl⟩
    exact ⟨rfl, head⟩
  · rintro ⟨rfl, head⟩
    exact ⟨f, head, rfl, rfl⟩

/-- A queue head that is taken is below every mailbox. -/
theorem State.queue_below {f : Frame} (h : lowest (s.candidates l) = some (.queue, f)) (id : MailboxId) (g : Frame)
    (offered : Offered s l (.mailbox id) g) : f.ident < g.ident := by
  have mail : (.mailbox id, g) ∈ s.pendingMail l := by
    rcases offered with offered | ⟨absurd, -⟩
    · exact State.mem_pendingMail.2 offered
    · cases absurd
  rcases lowest_append h with mem | ⟨-, below⟩
  · obtain ⟨id, data, absurd, -⟩ := State.mem_pendingMail.1 mem
    cases absurd
  · exact below _ mail

theorem State.makeOffer_silent (h : (s.link l).error = .busOff ∨ (s.link l).offer ≠ none) : s.makeOffer l = s :=
  if_neg fun ⟨on, free⟩ => h.elim on (· free)

end

/-- Settles O35. -/
theorem offerTakesTheLowestIdentifier : Obligations.OfferTakesTheLowestIdentifier := by
  intro s l reset
  refine ⟨fun silent => ?_, fun absent => ?_, fun on free some => ?_⟩
  · exact (next_unlessReset reset).trans (congrArg _ (State.makeOffer_silent silent))
  · refine (next_unlessReset reset).trans (congrArg _ ?_)
    have empty : s.candidates l = [] := List.eq_nil_iff_forall_not_mem.2 fun ⟨src, f⟩ mem =>
      absent src f (State.mem_candidates.1 mem)
    rw [State.makeOffer, empty]
    exact ite_self _
  · obtain ⟨src, f, offered⟩ := some
    obtain ⟨⟨src, f⟩, found⟩ := lowest_ne_none (List.ne_nil_of_mem (State.mem_candidates.2 offered))
    obtain ⟨mem, least⟩ := lowest_some found
    refine ⟨src, f, _, State.mem_candidates.1 mem, fun src' f' other => least _ (State.mem_candidates.2 other), ?_, rfl, ?_⟩
    · rintro rfl
      exact State.queue_below found
    · refine (next_unlessReset reset).trans (congrArg _ ?_)
      rw [State.makeOffer, if_pos ⟨on, free⟩, found]
      rfl

section

variable {s t : State} {l : Link} {c : LinkCtl}

/-! ### Counts and error states (R157 to R159) -/

theorem LinkCtl.derived_on (h : c.error ≠ .busOff) :
    c.derived = { c with error := if c.txCount < 128 ∧ c.rxCount < 128 then .active else .passive } := by
  rw [LinkCtl.derived, if_neg h, errorOf]

theorem LinkCtl.txGood_on (h : c.error ≠ .busOff) : c.txGood = { c with
    txCount := c.txCount - 1, error := if c.txCount - 1 < 128 ∧ c.rxCount < 128 then .active else .passive } :=
  LinkCtl.derived_on h

theorem LinkCtl.rxGood_on (h : c.error ≠ .busOff) : c.rxGood = { c with
    rxCount := c.rxCount - 1, error := if c.txCount < 128 ∧ c.rxCount - 1 < 128 then .active else .passive } :=
  LinkCtl.derived_on h

theorem LinkCtl.rxBad_on (h : c.error ≠ .busOff) : c.rxBad = { c with
    rxCount := min 255 (c.rxCount + 1)
    error := if c.txCount < 128 ∧ c.rxCount + 1 < 128 then .active else .passive } := by
  have saturates : min 255 (c.rxCount + 1) < 128 ↔ c.rxCount + 1 < 128 := by omega
  have derived := LinkCtl.derived_on (c := { c with rxCount := min 255 (c.rxCount + 1) }) h
  simp only [saturates] at derived
  exact derived

theorem LinkCtl.txBad_off (h : 255 < c.txCount + 8) : c.txBad = { c with txCount := 255, error := .busOff } := if_pos h

theorem LinkCtl.txBad_on (on : c.error ≠ .busOff) (h : ¬ 255 < c.txCount + 8) : c.txBad = { c with
    txCount := c.txCount + 8, error := if c.txCount + 8 < 128 ∧ c.rxCount < 128 then .active else .passive } :=
  (if_neg h).trans (LinkCtl.derived_on on)

theorem State.hears_on (h : (s.link l).error ≠ .busOff) : s.hears l = true := bne_iff_ne.2 h

/-- What stays of a new content of a Link Controller through the events that it brings. -/
theorem State.changeLink_settles (s : State) (l : Link) (c : LinkCtl) :
    (∃ o, (s.changeLink l c).settled.link l = { c with offer := o }) ∧ (s.changeLink l c).settled.intake = s.intake ∧
      (s.changeLink l c).settled.tables = s.tables ∧ (s.changeLink l c).settled.mgmt = s.mgmt := by
  obtain ⟨link, -, -, -, intake, tables, mgmt, -⟩ := s.changeLink_fields l c
  have events := (s.changeLink l c).settled_reacts
  refine ⟨⟨((s.changeLink l c).settled.link l).offer, ?_⟩, events.intake.trans intake, events.tables.trans tables,
    events.mgmt.trans mgmt⟩
  have link' := events.link l
  rwa [link] at link'

end

/-- Settles O21. -/
theorem otherFramesAndErrorsMoveTheReceiveCount : Obligations.OtherFramesAndErrorsMoveTheReceiveCount := by
  intro s l reset on
  constructor
  · obtain ⟨⟨o, link⟩, intake, tables, mgmt⟩ := s.changeLink_settles l (s.link l).rxGood
    refine ⟨_, (next_unlessReset reset).trans (congrArg _ (if_pos (State.hears_on on))), ?_⟩
    generalize (s.changeLink l (s.link l).rxGood).settled = t at link intake tables mgmt ⊢
    rw [link, LinkCtl.rxGood_on on]
    exact ⟨rfl, rfl, rfl, rfl, rfl, rfl, rfl, intake, tables, mgmt⟩
  · obtain ⟨⟨o, link⟩, intake, tables, mgmt⟩ := s.changeLink_settles l (s.link l).rxBad
    refine ⟨_, (next_unlessReset reset).trans (congrArg _ (if_pos (State.hears_on on))), ?_⟩
    generalize (s.changeLink l (s.link l).rxBad).settled = t at link intake tables mgmt ⊢
    rw [link, LinkCtl.rxBad_on on]
    exact ⟨rfl, rfl, rfl, rfl, rfl, rfl, rfl, intake, tables, mgmt⟩

end Sys2Proof.Machine

/-! ### Links: a frame transmitted or failed, the recovery from BUS_OFF, the silence monitor and the drop timer (R157 to R163) -/

namespace Sys2Proof.Machine

section

variable {s t u : State} {l : Link} {o : Offer} {c : LinkCtl} {id : MailboxId} {x : Time} {k : FaultKind}

/-! ### Events after an operation of a link: on the T-link there are none -/

/-- What the events that follow leave of a link's controller and of its mailboxes. -/
theorem State.settled_onLink (quiet : l = .t → u.notices = []) :
    u.settled.link l = u.link l ∧ ∀ id, id.link = l → u.settled.mail.get id = u.mail.get id := by
  have events := u.settled_reacts
  cases l with
  | t =>
    rw [State.settled_nil (quiet rfl)]
    exact ⟨rfl, fun _ _ => rfl⟩
  | v =>
    refine ⟨events.vLink, fun id place => events.mailbox ?_⟩
    rintro rfl
    cases place

theorem State.changeLink_quiet (ready : s.Ready) (l : Link) (c : LinkCtl) :
    l = .t → (s.changeLink l c).notices = [] := by
  rintro rfl
  exact ready.2

/-- The bus-off timer of the V-link starts at an entry into BUS_OFF (R170). -/
theorem State.changeLink_entersBusOff (before : s.vLink.error ≠ .busOff) (after : c.error = .busOff) :
    (s.changeLink .v c).mode = { s.mode with busOffTimer := some (s.now + 500 * Config.msTicks) } := by
  have news : (s.setLink .v c).busOffNews s.vLink.error c.error = _ := if_pos ⟨before, after⟩
  simp only [State.changeLink, State.link, news]
  split <;> rfl

/-- A recovery ends it, and the cause (R170). -/
theorem State.changeLink_leavesBusOff (before : s.vLink.error = .busOff) (after : c.error ≠ .busOff) :
    (s.changeLink .v c).mode = { s.mode with busOffTimer := none, busOffCause := false } := by
  have news : (s.setLink .v c).busOffNews s.vLink.error c.error = _ :=
    (if_neg fun h => h.1 before).trans (if_pos ⟨before, after⟩)
  simp only [State.changeLink, State.link, news]
  split <;> rfl

/-! ### A frame transmitted and acknowledged (R161 to R163) -/

/-- What is left after a frame of this controller was transmitted. -/
structure SentFrom (s t : State) (l : Link) (o : Offer) : Prop where
  txCount : (t.link l).txCount = (s.link l).txCount - 1
  rxCount : (t.link l).rxCount = (s.link l).rxCount
  offer : (t.link l).offer = none
  error : (t.link l).error = if (s.link l).txCount - 1 < 128 ∧ (s.link l).rxCount < 128 then .active else .passive
  mailbox : ∀ id, o.source = .mailbox id → t.mail.get id = ⟨(s.mail.get id).content, o.rewritten⟩ ∧
    (t.link l).queue = (s.link l).queue
  queue : o.source = .queue → (t.link l).queue = (s.link l).queue.tail
  others : ∀ id, o.source ≠ .mailbox id → id ≠ .shiftRecord → t.mail.get id = s.mail.get id
  other : (t.link l.other).queue = (s.link l.other).queue
  tables : t.tables = s.tables

/-- A reset that begins then touches none of it. -/
theorem SentFrom.beginReset (h : SentFrom s t l o) (k : ResetKind) : SentFrom s (t.beginReset k) l o := by
  obtain ⟨tables, mail, links, -, -⟩ := t.beginReset_fields k
  exact {
    txCount := by rw [links]; exact h.txCount
    rxCount := by rw [links]; exact h.rxCount
    offer := by rw [links]; rfl
    error := by rw [links]; exact h.error
    mailbox := by rw [links, mail]; exact h.mailbox
    queue := by rw [links]; exact h.queue
    others := by rw [mail]; exact h.others
    other := by rw [links]; exact h.other
    tables := tables.trans h.tables }

theorem State.sent_mailbox (h : o.source = .mailbox id) :
    s.sent l o = { s with mail := s.mail.put id { s.mail.get id with pending := o.rewritten } } := by
  simp only [State.sent, h]

theorem State.sent_queue (h : o.source = .queue) :
    s.sent l o = s.setLink l { s.link l with queue := (s.link l).queue.tail } := by
  simp only [State.sent, h]

theorem other_ne (l : Link) : l.other ≠ l := by
  cases l <;> decide

/-- Nor do the events that follow. -/
theorem SentFrom.settles (h : SentFrom s u l o) (quiet : l = .t → u.notices = [])
    (place : ∀ id, o.source = .mailbox id → id.link = l) : SentFrom s u.settled l o := by
  obtain ⟨link, boxes⟩ := State.settled_onLink quiet
  have events := u.settled_reacts
  exact {
    txCount := by rw [link]; exact h.txCount
    rxCount := by rw [link]; exact h.rxCount
    offer := by rw [link]; exact h.offer
    error := by rw [link]; exact h.error
    mailbox := fun id source => by rw [link, boxes id (place id source)]; exact h.mailbox id source
    queue := by rw [link]; exact h.queue
    others := fun id source other => (events.mailbox other).trans (h.others id source other)
    other := by rw [events.link l.other]; exact h.other
    tables := events.tables.trans h.tables }

/-- The frame leaves its place. -/
theorem State.offerSent_from (on : (s.link l).error ≠ .busOff) : SentFrom s (s.offerSent l o) l o := by
  obtain ⟨link, others, -, -, -, tables, -, -, -, mail, -, -⟩ :=
    s.changeLink_fields l { (s.link l).txGood with offer := none }
  have otherLink := others _ (other_ne l)
  rw [State.offerSent]
  generalize s.changeLink l { (s.link l).txGood with offer := none } = v at link otherLink tables mail
  rw [LinkCtl.txGood_on on] at link
  cases source : o.source with
  | mailbox id =>
    rw [State.sent_mailbox source]
    have here : ({ v with mail := v.mail.put id { v.mail.get id with pending := o.rewritten } } : State).link l = v.link l := by
      cases l <;> rfl
    have there : ({ v with mail := v.mail.put id { v.mail.get id with pending := o.rewritten } } : State).link l.other =
        v.link l.other := by cases l <;> rfl
    exact {
      txCount := by rw [here, link]
      rxCount := by rw [here, link]
      offer := by rw [here, link]
      error := by rw [here, link]
      mailbox := fun id' named => by
        rw [source] at named
        cases named
        rw [here, link, Mailboxes.get_put, if_pos rfl, mail]
        exact ⟨rfl, rfl⟩
      queue := fun absurd => nomatch source.symm.trans absurd
      others := fun id' other _ => by
        rw [Mailboxes.get_put, if_neg fun same => other (source.trans (congrArg _ same)), mail]
      other := by rw [there, otherLink]
      tables := tables }
  | queue =>
    rw [State.sent_queue source]
    have here : (v.setLink l { v.link l with queue := (v.link l).queue.tail }).link l =
        { v.link l with queue := (v.link l).queue.tail } := (v.link_setLink l l _).trans (if_pos rfl)
    have there : (v.setLink l { v.link l with queue := (v.link l).queue.tail }).link l.other = v.link l.other :=
      (v.link_setLink l l.other _).trans (if_neg (other_ne l).symm)
    have same : (v.setLink l { v.link l with queue := (v.link l).queue.tail }).mail = v.mail ∧
        (v.setLink l { v.link l with queue := (v.link l).queue.tail }).tables = v.tables := by cases l <;> exact ⟨rfl, rfl⟩
    exact {
      txCount := by rw [here, link]
      rxCount := by rw [here, link]
      offer := by rw [here, link]
      error := by rw [here, link]
      mailbox := fun id' absurd => nomatch source.symm.trans absurd
      queue := fun _ => by rw [here, link]
      others := fun id' _ _ => by rw [same.1, mail]
      other := by rw [there, otherLink]
      tables := same.2.trans tables }

/-- What transmitting a frame leaves alone, before the events that follow are taken. -/
theorem State.offerSent_same (s : State) (l : Link) (o : Offer) : (s.offerSent l o).mgmt = s.mgmt ∧
    (s.offerSent l o).intake = s.intake ∧ (s.offerSent l o).resetting = s.resetting ∧
    (l = .t → (s.offerSent l o).notices = s.notices) := by
  obtain ⟨-, -, -, resetting, intake, -, mgmt, -⟩ := s.changeLink_fields l { (s.link l).txGood with offer := none }
  have notices : l = .t → (s.changeLink l { (s.link l).txGood with offer := none }).notices = s.notices := by
    rintro rfl
    rfl
  rw [State.offerSent]
  generalize s.changeLink l { (s.link l).txGood with offer := none } = v at resetting intake mgmt notices
  rw [State.sent]
  split
  · exact ⟨mgmt, intake, resetting, notices⟩
  · cases l <;> exact ⟨mgmt, intake, resetting, notices⟩

theorem State.transmitted_eq (offer : (s.link l).offer = some o) : s.transmitted l =
    if o.restartDone = true ∧ running (s.offerSent l o).settled.mgmt.restart = true
    then (s.offerSent l o).settled.beginReset .management else (s.offerSent l o).settled := by
  simp only [State.transmitted, offer]

end

/-- Settles O36: the frame leaves its place, and the DONE reply of a pending restart begins a reset then. -/
theorem transmittedFrameLeavesItsPlace : Obligations.TransmittedFrameLeavesItsPlace := by
  intro s l o ready offer on place
  obtain ⟨mgmt, intake, resetting, notices⟩ := s.offerSent_same l o
  have events := (s.offerSent l o).settled_reacts
  have left : SentFrom s (s.offerSent l o).settled l o :=
    (State.offerSent_from on).settles (fun same => (notices same).trans ready.2) place
  have mgmt : (s.offerSent l o).settled.mgmt = s.mgmt := events.mgmt.trans mgmt
  have intake := events.intake.trans intake
  have resetting := (events.resetting.trans resetting).trans ready.1
  refine ⟨_, (next_unlessReset ready.1).trans (congrArg _ (State.transmitted_eq offer)), ?_⟩
  have restarts : (o.restartDone = true ∧ running (s.offerSent l o).settled.mgmt.restart = true) ↔
      o.restartDone = true ∧ s.mgmt.restart ≠ none := by rw [mgmt, running, Option.isSome_iff_ne_none]
  generalize (s.offerSent l o).settled = u at left mgmt intake resetting restarts
  simp only [restarts]
  split
  next restart =>
    obtain ⟨-, -, -, begins, neut⟩ := u.beginReset_fields .management
    have after := left.beginReset .management
    exact ⟨after.txCount, after.rxCount, after.offer, after.error, after.mailbox, after.queue, after.others, after.other,
      after.tables, begins resetting, u.beginReset_stopped _, neut⟩
  next =>
    exact ⟨left.txCount, left.rxCount, left.offer, left.error, left.mailbox, left.queue, left.others, left.other,
      left.tables, resetting, mgmt, intake⟩

end Sys2Proof.Machine

/-! ### Links: a failed transmission, the recovery from BUS_OFF, the silence monitor and the drop timer (R157 to R162) -/

namespace Sys2Proof.Machine

section

variable {s t : State} {l : Link} {c : LinkCtl} {x : Time} {k : FaultKind} {sil : Silence}

/-! ### A new content of a link's controller, with the events that it brings -/

/-- What a command that changes a link's controller leaves. -/
structure LinkChanged (s t : State) (l : Link) (c : LinkCtl) : Prop where
  link : t.link l = c
  mail : ∀ id, id ≠ .shiftRecord → t.mail.get id = s.mail.get id
  intake : t.intake = s.intake
  tables : t.tables = s.tables
  mgmt : t.mgmt = s.mgmt
  entersBusOff : l = .v → (s.link l).error ≠ .busOff → c.error = .busOff →
    t.mode.busOffTimer = some (s.now + 500 * Config.msTicks)
  leavesBusOff : l = .v → (s.link l).error = .busOff → c.error ≠ .busOff →
    t.mode.busOffTimer = none ∧ t.mode.busOffCause = false

theorem State.changeLink_changed (ready : s.Ready) (l : Link) (c : LinkCtl) :
    LinkChanged s (s.changeLink l c).settled l c := by
  obtain ⟨link, -, -, -, intake, tables, mgmt, -, -, mail, -⟩ := s.changeLink_fields l c
  obtain ⟨here, -⟩ := State.settled_onLink (State.changeLink_quiet ready l c)
  have events := (s.changeLink l c).settled_reacts
  exact {
    link := here.trans link
    mail := fun id other => by rw [events.mailbox other, mail]
    intake := events.intake.trans intake
    tables := events.tables.trans tables
    mgmt := events.mgmt.trans mgmt
    entersBusOff := by
      rintro rfl before after
      rw [events.mode, State.changeLink_entersBusOff before after]
    leavesBusOff := by
      rintro rfl before after
      rw [events.mode, State.changeLink_leavesBusOff before after]
      exact ⟨rfl, rfl⟩ }

theorem exec_txError {o : Offer} (reset : s.resetting = none) (offer : (s.link l).offer = some o) :
    exec (.txError l) s = .next (s.changeLink l { (s.link l).txBad with offer := none }).settled := by
  refine (next_unlessReset reset).trans ?_
  simp only [offer, State.offerFailed]

theorem LinkCtl.txBad_same (c : LinkCtl) : c.txBad.queue = c.queue ∧ c.txBad.rxCount = c.rxCount := by
  rw [LinkCtl.txBad]
  split <;> exact ⟨rfl, rfl⟩

theorem State.recover_on (h : (s.link l).error ≠ .busOff) : s.recover l = s := if_neg h

theorem State.recover_off (h : (s.link l).error = .busOff) :
    s.recover l = s.changeLink l { s.link l with txCount := 0, rxCount := 0, error := .active } := if_pos h

end

/-- Settles O37. -/
theorem failedTransmissionKeepsItsFrame : Obligations.FailedTransmissionKeepsItsFrame := by
  intro s l ready
  refine ⟨fun o offer on => ?_, next_unlessReset ready.1, fun off => ?_, fun on => ?_⟩
  · have changed := State.changeLink_changed ready l { (s.link l).txBad with offer := none }
    obtain ⟨queue, rxCount⟩ := (s.link l).txBad_same
    refine ⟨_, exec_txError ready.1 offer, ?_⟩
    generalize (s.changeLink l { (s.link l).txBad with offer := none }).settled = t at changed
    refine ⟨by rw [changed.link], by rw [changed.link, queue], by rw [changed.link, rxCount], fun id _ => changed.mail id, ?_,
      changed.intake, changed.tables, changed.mgmt⟩
    split
    next beyond =>
      have bad := LinkCtl.txBad_off beyond
      exact ⟨by rw [changed.link, bad], by rw [changed.link, bad], fun same =>
        changed.entersBusOff same on (congrArg LinkCtl.error bad)⟩
    next within =>
      rw [changed.link, LinkCtl.txBad_on on within]
      exact ⟨rfl, rfl⟩
  · have changed :=
      State.changeLink_changed ready l { s.link l with txCount := 0, rxCount := 0, error := .active }
    refine ⟨_, next_unlessReset ready.1, ?_⟩
    rw [State.recover_off off]
    generalize (s.changeLink l { s.link l with txCount := 0, rxCount := 0, error := .active }).settled = t at changed ⊢
    exact ⟨by rw [changed.link], by rw [changed.link], by rw [changed.link], by rw [changed.link], changed.mail,
      fun same => changed.leavesBusOff same off nofun, changed.intake, changed.tables, changed.mgmt⟩
  · refine (next_unlessReset ready.1).trans (congrArg _ ?_)
    rw [State.recover_on on, State.settled_nil ready.2]

section

variable {s u : State} {l : Link} {c : LinkCtl} {x : Time} {k : FaultKind} {sil : Silence}

/-! ### The silence monitor (R160) -/

/-- A silence time ends: the state of the monitor, and its fault. -/
def State.silentAt (x : Time) (l : Link) (sil : Silence) (k : FaultKind) (s : State) : State :=
  ((s.expire (some x)).changeLink l { s.link l with silence := sil }).raiseLink k l

theorem State.linkSuspect_ok {t0 : Time} (ok : (s.link l).silence = .ok) (runs : (s.link l).silenceStart = some t0) :
    s.linkSuspect l = s.silentAt (t0 + 200 * Config.msTicks) l .suspect .linkSuspect := by
  have ends : (s.link l).silenceAt Config.suspectMs = some (t0 + 200 * Config.msTicks) := by
    rw [LinkCtl.silenceAt, runs]
    rfl
  rw [State.linkSuspect, if_pos ⟨ok, by rw [runs]; rfl⟩, ends]
  rfl

theorem State.linkSuspect_past (h : (s.link l).silence ≠ .ok) : s.linkSuspect l = s := if_neg fun ⟨ok, _⟩ => h ok

theorem State.linkFailed_of {t0 : Time} (suspect : ((s.linkSuspect l).link l).silence = .suspect)
    (runs : ((s.linkSuspect l).link l).silenceStart = some t0) :
    s.linkFailed l = (s.linkSuspect l).silentAt (t0 + 1000 * Config.msTicks) l .failed .linkFailed := by
  have ends : ((s.linkSuspect l).link l).silenceAt Config.failedMs = some (t0 + 1000 * Config.msTicks) := by
    rw [LinkCtl.silenceAt, runs]
    rfl
  rw [State.linkFailed, if_pos ⟨suspect, by rw [runs]; rfl⟩, ends]
  rfl

/-- What the end of a silence time writes. -/
theorem State.silentAt_fields (s : State) (x : Time) (l : Link) (sil : Silence) (k : FaultKind) :
    (s.silentAt x l sil k).link l = { s.link l with silence := sil } ∧
    (s.silentAt x l sil k).now = max s.now x ∧ (s.silentAt x l sil k).intake = s.intake ∧
    (s.silentAt x l sil k).tables = s.tables ∧
    (s.silentAt x l sil k).faults = s.faults.raised k l.index (some (max s.now x + 1000 * Config.msTicks)) ∧
    (l = .t → (s.silentAt x l sil k).notices = s.notices) := by
  obtain ⟨link, -, now, -, intake, tables, -, -, -, -, -, faults⟩ :=
    (s.expire (some x)).changeLink_fields l { s.link l with silence := sil }
  have notices : l = .t → ((s.expire (some x)).changeLink l { s.link l with silence := sil }).notices = s.notices := by
    rintro rfl
    rfl
  rw [State.silentAt, State.raiseLink]
  generalize (s.expire (some x)).changeLink l { s.link l with silence := sil } = v at *
  have same : (v.raise k l.index).link l = v.link l := by cases l <;> rfl
  refine ⟨same.trans link, now, intake, tables, ?_, notices⟩
  show v.faults.raised k l.index (some (v.now + 1000 * Config.msTicks)) = _
  rw [faults, now]
  rfl

/-- What the events that follow leave of it. -/
theorem State.silentAt_settles (quiet : l = .t → s.notices = []) (x : Time) (sil : Silence) (k : FaultKind) :
    (s.silentAt x l sil k).settled.link l = { s.link l with silence := sil } ∧
    (s.silentAt x l sil k).settled.now = max s.now x ∧ (s.silentAt x l sil k).settled.intake = s.intake ∧
    (s.silentAt x l sil k).settled.tables = s.tables ∧
    (s.faults.raised k l.index (some (max s.now x + 1000 * Config.msTicks))).Keeps
      (s.silentAt x l sil k).settled.faults := by
  obtain ⟨link, now, intake, tables, faults, notices⟩ := s.silentAt_fields x l sil k
  have events := (s.silentAt x l sil k).settled_reacts
  obtain ⟨here, -⟩ := State.settled_onLink fun same => (notices same).trans (quiet same)
  refine ⟨here.trans link, events.now.trans now, events.intake.trans intake, events.tables.trans tables, ?_⟩
  rw [← faults]
  exact events.faults

/-! ### The drop timer (R162) -/

theorem State.dropExpired_running (runs : (s.link l).dropTimer = some x) : s.dropExpired l =
    { (s.expire (some x)).setLink l { s.link l with dropTimer := none } with
      faults := s.faults.cleared .passageDrop l.index } := by
  rw [State.dropExpired]
  simp only [runs]
  cases l <;> rfl

theorem State.dropExpired_stopped (h : (s.link l).dropTimer = none) : s.dropExpired l = s := by
  rw [State.dropExpired]
  simp only [h]
  rfl

end

/-- Settles O38. -/
theorem linkTimersRaiseAndEndTheirFaults : Obligations.LinkTimersRaiseAndEndTheirFaults := by
  intro s l ready
  refine ⟨fun t0 ok runs => ?_, fun t0 suspect runs => ?_, fun t0 ok runs => ?_, fun x runs => ?_, fun stopped => ?_⟩
  · obtain ⟨link, now, intake, tables, faults⟩ := State.silentAt_settles (s := s) (l := l) (fun _ => ready.2)
      (t0 + 200 * Config.msTicks) .suspect .linkSuspect
    refine ⟨_, next_unlessReset ready.1, ?_⟩
    rw [State.linkSuspect_ok ok runs]
    generalize (s.silentAt (t0 + 200 * Config.msTicks) l .suspect .linkSuspect).settled = t at *
    rw [link, now]
    exact ⟨rfl, rfl, runs, rfl, faults.holds _ rfl, intake, tables⟩
  · obtain ⟨link, now, intake, tables, faults⟩ := State.silentAt_settles (s := s) (l := l) (fun _ => ready.2)
      (t0 + 1000 * Config.msTicks) .failed .linkFailed
    have past : s.linkSuspect l = s := State.linkSuspect_past (by rw [suspect]; nofun)
    refine ⟨_, next_unlessReset ready.1, ?_⟩
    rw [State.linkFailed_of (t0 := t0) (by rw [past, suspect]) (by rw [past, runs]), past]
    generalize (s.silentAt (t0 + 1000 * Config.msTicks) l .failed .linkFailed).settled = t at *
    rw [link, now]
    exact ⟨rfl, rfl, runs, rfl, ⟨faults.holds _ rfl, faults.holds _ rfl⟩, intake, tables⟩
  · have first := State.linkSuspect_ok ok runs
    obtain ⟨link₁, now₁, intake₁, tables₁, faults₁, notices₁⟩ :=
      s.silentAt_fields (t0 + 200 * Config.msTicks) l .suspect .linkSuspect
    rw [← first] at link₁ now₁ intake₁ tables₁ faults₁ notices₁
    obtain ⟨link, now, intake, tables, faults⟩ :=
      State.silentAt_settles (s := s.linkSuspect l) (l := l) (fun same => (notices₁ same).trans ready.2)
        (t0 + 1000 * Config.msTicks) .failed .linkFailed
    refine ⟨_, next_unlessReset ready.1, ?_⟩
    rw [State.linkFailed_of (t0 := t0) (by rw [link₁]) (by rw [link₁]; exact runs)]
    generalize ((s.linkSuspect l).silentAt (t0 + 1000 * Config.msTicks) l .failed .linkFailed).settled = t at *
    have later : max (s.linkSuspect l).now (t0 + 1000 * Config.msTicks) = max s.now (t0 + 1000 * Config.msTicks) := by
      have order : t0 + 200 * Config.msTicks ≤ t0 + 1000 * Config.msTicks := Nat.add_le_add_left (by decide) _
      rw [now₁, Nat.max_assoc, Nat.max_eq_right order]
    rw [link, now, link₁, later]
    rw [faults₁] at faults
    refine ⟨rfl, rfl, runs, rfl, ?_, ?_, intake.trans intake₁, tables.trans tables₁⟩
    · exact Faults.Holds.raises .start ((Faults.Moves.raised .start _ _ _).trans (faults.holds _ rfl))
    · exact Faults.Holds.raises (.raised .start _ _ _) (faults.holds _ rfl)
  · exact (next_unlessReset ready.1).trans (congrArg _ (State.dropExpired_running runs))
  · exact (next_unlessReset ready.1).trans (congrArg _ (State.dropExpired_stopped stopped))

end Sys2Proof.Machine

/-! ### Received frames (R1 to R3, R156, R160, R162): counting, classification, forwarding; the frames that reach no block -/

namespace Sys2Proof.Machine

section

variable {s t u : State} {l k : Link} {c : LinkCtl} {time : Time} {e : MapEntry} {f : Frame}

/-! ### The counting of a frame (R156, R160) -/

/-- What a data frame finds: the time base at its arrival, and the frame counted. -/
def State.heardOn (s : State) (time : Time) (l : Link) : State := (s.atTime time).countFrame l

theorem State.link_atTime (s : State) (time : Time) (l : Link) : (s.atTime time).link l = s.link l := by
  cases l <;> rfl

/-- What the counting writes and what it leaves. -/
structure HeardOn (s t : State) (time : Time) (l : Link) : Prop where
  link : t.link l = { (s.link l).rxGood with silence := .ok, silenceStart := some (max s.now time) }
  others : ∀ k, k ≠ l → t.link k = s.link k
  now : t.now = max s.now time
  resetting : t.resetting = s.resetting
  intake : t.intake = s.intake
  tables : t.tables = s.tables
  mgmt : t.mgmt = s.mgmt
  supervisor : t.supervisor = s.supervisor
  draft : t.draft.record = s.draft.record
  mail : t.mail = s.mail
  emission : t.emission = s.emission
  faults : t.faults = (s.faults.cleared .linkSuspect l.index).cleared .linkFailed l.index

theorem State.heardOn_fields (s : State) (time : Time) (l : Link) : HeardOn s (s.heardOn time l) time l := by
  obtain ⟨link, others, now, resetting, intake, tables, mgmt, supervisor, draft, mail, emission, faults⟩ :=
    (s.atTime time).changeLink_fields l
      { ((s.atTime time).link l).rxGood with silence := .ok, silenceStart := some (s.atTime time).now }
  rw [State.heardOn, State.countFrame]
  generalize (s.atTime time).changeLink l
    { ((s.atTime time).link l).rxGood with silence := .ok, silenceStart := some (s.atTime time).now } = v at *
  have same (k : Link) : ((v.gone .linkSuspect l.index).gone .linkFailed l.index).link k = v.link k := by cases k <;> rfl
  exact {
    link := by rw [same, link, State.link_atTime]; rfl
    others := fun k other => by rw [same, others k other, State.link_atTime]
    now := now, resetting := resetting, intake := intake, tables := tables, mgmt := mgmt, supervisor := supervisor
    draft := by
      show v.draft.record = s.draft.record
      rw [draft]
      rfl
    mail := mail, emission := emission
    faults := by
      show (v.faults.cleared .linkSuspect l.index).cleared .linkFailed l.index = _
      rw [faults]
      rfl }

/-- A frame that a link's controller receives. -/
theorem State.receive_heard (reset : s.resetting = none) (on : (s.link l).error ≠ .busOff) :
    s.receive time l false f = ((s.heardOn time l).takeFrame l false f).settled := by
  rw [State.receive, State.unlessReset_on reset, if_pos (State.hears_on on)]
  rfl

theorem State.heardOn_map (s : State) (time : Time) (l : Link) :
    (s.heardOn time l).mapFor false = s.inUse .intakeMap :=
  State.inUse_of_tables (s.heardOn_fields time l).tables .intakeMap

/-! ### Classification (R1, R2) -/

variable {ws : List TWord}

theorem findEntry_some (h : findEntry ws l f.ident = some e) : Matches ws l f e := by
  have found := List.find?_some h
  simp only [Bool.and_eq_true, bne_iff_ne, beq_iff_eq] at found
  exact ⟨List.mem_of_find?_eq_some h, found.1.1, found.1.2, found.2⟩

theorem findEntry_none (h : findEntry ws l f.ident = none) : ¬ Matches ws l f e := by
  rintro ⟨mem, used, link, ident⟩
  have absent := List.find?_eq_none.1 h e mem
  simp only [Bool.and_eq_true, bne_iff_ne, beq_iff_eq] at absent
  exact absent ⟨⟨used, link⟩, ident⟩

theorem classify_unmatched (h : Unmatched s l f) : classify (s.inUse .intakeMap) l f = .unmatched := by
  obtain ⟨data, short⟩ := h
  rw [classify, if_neg data]
  cases found : findEntry (s.inUse .intakeMap) l f.ident with
  | none => rfl
  | some e => exact if_pos (short e (findEntry_some found))

theorem findEntry_matched (h : MatchedTo s l f e) : findEntry (s.inUse .intakeMap) l f.ident = some e := by
  obtain ⟨-, fits, only, -⟩ := h
  cases found : findEntry (s.inUse .intakeMap) l f.ident with
  | none => exact absurd fits (findEntry_none found)
  | some e' => rw [only e' (findEntry_some found)]

theorem classify_matched (h : MatchedTo s l f e) : classify (s.inUse .intakeMap) l f =
    match e.kind with
    | .operator => .operator e
    | .signal => .signal e
    | .unused => .unmatched := by
  rw [classify, if_neg h.1, findEntry_matched h]
  exact if_neg (Nat.not_lt.2 h.2.2.2)

/-- A frame of kind SIGNAL is forwarded and brings its updates. -/
theorem State.takeFrame_signal (h : MatchedTo s l f e) (kind : e.kind = .signal) : (s.heardOn time l).takeFrame l false f =
    ((s.heardOn time l).forward l e f).applyUpdates (extractAll e f.data) := by
  simp only [State.takeFrame, State.heardOn_map, classify_matched h, kind]

/-- A frame of kind OPERATOR_COMMAND is forwarded and reaches the Command Supervisor. -/
theorem State.takeFrame_operator (h : MatchedTo s l f e) (kind : e.kind = .operator) :
    (s.heardOn time l).takeFrame l false f = ((s.heardOn time l).forward l e f).operatorFrame f.data := by
  simp only [State.takeFrame, State.heardOn_map, classify_matched h, kind]

theorem State.takeFrame_unmatched (h : Unmatched s l f) : (s.heardOn time l).takeFrame l false f = s.heardOn time l := by
  simp only [State.takeFrame, State.heardOn_map, classify_unmatched h]

/-- What a frame that was counted leaves alone stays through the events that follow. -/
theorem Reacts.queues (h : Reacts s t) (k : Link) : (t.link k).queue = (s.link k).queue := by
  rw [h.link k]

theorem HeardOn.queues (h : HeardOn s t time l) (k : Link) : (t.link k).queue = (s.link k).queue := by
  by_cases same : k = l
  · subst same
    rw [h.link]
    rfl
  · rw [h.others k same]

end

/-- Settles O16. -/
theorem unmatchedFrameIsCountedAndDropped : Obligations.UnmatchedFrameIsCountedAndDropped := by
  intro s time l f reset on unmatched
  have heard := s.heardOn_fields time l
  have events := (s.heardOn time l).settled_reacts
  refine ⟨_, congrArg Host.Outcome.next (State.receive_heard reset on), ?_⟩
  rw [State.takeFrame_unmatched unmatched]
  generalize (s.heardOn time l).settled = t at events ⊢
  generalize s.heardOn time l = u at heard events
  rw [events.link l, heard.link]
  have now := events.now.trans heard.now
  exact ⟨now, rfl, rfl, congrArg some now.symm, fun k => (events.queues k).trans (heard.queues k),
    events.intake.trans heard.intake, events.tables.trans heard.tables, events.mgmt.trans heard.mgmt,
    events.supervisor.trans heard.supervisor, (congrArg Draft.record events.draft).trans heard.draft,
    (events.mailbox (id := .reply) nofun).trans (congrArg Mailboxes.reply heard.mail)⟩

section

variable {s t u : State} {l k : Link} {c : LinkCtl} {time : Time} {e : MapEntry} {f : Frame} {data : List Byte}

/-! ### Forwarding (R3, R162) -/

/-- The passage queue of a link after a frame is handed to it. -/
def State.passageAfter (s : State) (k : Link) (e : MapEntry) (f : Frame) : LinkCtl := { s.link k with
  queue := if e.forward = true ∧ (s.link k).queue.length < 8 then (s.link k).queue ++ [f] else (s.link k).queue
  dropTimer := if e.forward = true ∧ 8 ≤ (s.link k).queue.length then some (s.now + 1000 * Config.msTicks)
    else (s.link k).dropTimer }

/-- The Fault List after that: a frame for a full queue is dropped. -/
def State.passageFaults (s : State) (k : Link) (e : MapEntry) : Faults :=
  if e.forward = true ∧ 8 ≤ (s.link k).queue.length
  then s.faults.raised .passageDrop k.index (some (s.now + 1000 * Config.msTicks)) else s.faults

theorem State.setLink_same (s : State) (k : Link) : s.setLink k (s.link k) = s := by
  cases k <;> rfl

theorem State.forward_eq (s : State) (l : Link) (e : MapEntry) (f : Frame) : s.forward l e f =
    { s.setLink l.other (s.passageAfter l.other e f) with faults := s.passageFaults l.other e } := by
  rw [State.forward]
  cases flag : e.forward with
  | false =>
    have same : s.passageAfter l.other e f = s.link l.other := by
      simp only [State.passageAfter, flag, Bool.false_eq_true, false_and, if_false]
    have faults : s.passageFaults l.other e = s.faults := by
      simp only [State.passageFaults, flag, Bool.false_eq_true, false_and, if_false]
    rw [same, faults, State.setLink_same]
    rfl
  | true =>
    rw [if_pos rfl, State.enqueue]
    by_cases room : (s.link l.other).queue.length < 8
    · have full : ¬ 8 ≤ (s.link l.other).queue.length := Nat.not_le.2 room
      simp only [State.passageAfter, State.passageFaults, flag, room, full, queueSize, true_and, if_true, if_false]
      cases l <;> rfl
    · have full : 8 ≤ (s.link l.other).queue.length := Nat.not_lt.1 room
      simp only [State.passageAfter, State.passageFaults, flag, room, full, queueSize, true_and, if_true, if_false]
      cases l <;> rfl

/-! ### The slot updates of a frame (R12) -/

theorem State.updateSlot_eq (s : State) (i : Fin 16) (v : Int) : s.updateSlot i v =
    s.relaid (s.intake.slots.set i ⟨.fresh, v, s.after (s.timeoutMs i)⟩) s.intake.mapBefore
      (if (s.slot i).state = .substituted then s.faults.cleared .signalLost i.val else s.faults) := by
  rw [State.updateSlot]
  split <;> rfl

/-- The updates of a frame, before they are announced. -/
def State.updated (us : List (Fin 16 × Int)) (s : State) : State := us.foldl (fun s u => s.updateSlot u.1 u.2) s

/-- They write the slots, and report SIGNAL_LOST gone. -/
theorem State.updated_relaid (us : List (Fin 16 × Int)) (s : State) : ∃ slots faults,
    s.faults.Moves (fun k _ => k = .signalLost) faults ∧ s.updated us = s.relaid slots s.intake.mapBefore faults := by
  induction us generalizing s with
  | nil => exact ⟨_, _, .start, rfl⟩
  | cons u us ih =>
    obtain ⟨slots, faults, moves, rest⟩ := ih (s.updateSlot u.1 u.2)
    refine ⟨slots, faults, Faults.Moves.trans ?_ moves, ?_⟩
    · rw [State.updateSlot_eq]
      show s.faults.Moves _ (if (s.slot u.1).state = .substituted then _ else _)
      split
      · exact .cleared .start rfl
      · exact .start
    · rw [State.updated, List.foldl_cons, ← State.updated, rest, State.updateSlot_eq]
      rfl

theorem State.applyUpdates_none {us : List (Fin 16 × Int)}
    (h : (us.filter fun u => (s.slot u.1).state != .unmapped) = []) : s.applyUpdates us = s := by
  rw [State.applyUpdates]
  exact if_pos h

/-- A frame's updates write the slots and report SIGNAL_LOST gone; all else follows by reactions. -/
theorem State.applyUpdates_acts (us : List (Fin 16 × Int)) (s : State) : ∃ slots faults,
    s.faults.Moves (fun k _ => k = .signalLost) faults ∧
      Acts (s.relaid slots s.intake.mapBefore faults) (s.applyUpdates us) := by
  by_cases none : (us.filter fun u => (s.slot u.1).state != .unmapped) = []
  · rw [State.applyUpdates_none none]
    exact ⟨s.intake.slots, s.faults, .start, .refl _⟩
  · obtain ⟨slots, faults, moves, updated⟩ := s.updated_relaid (us.filter fun u => (s.slot u.1).state != .unmapped)
    refine ⟨slots, faults, moves, ?_⟩
    rw [State.applyUpdates]
    simp only [if_neg none]
    rw [← updated]
    exact State.announceSlots_acts (.refl _) _

/-! ### A frame at the Command Supervisor (R174 to R176) -/

theorem State.supervisorError_keeps (s : State) : (∀ k, s.supervisorError.link k = s.link k) ∧
    s.supervisorError.now = s.now ∧ s.faults.Moves (fun k _ => k = .cmdSupervision) s.supervisorError.faults := by
  rw [State.supervisorError_eq]
  simp only
  split
  · exact ⟨fun k => by cases k <;> rfl, rfl, .start⟩
  · split
    · exact ⟨fun k => by cases k <;> rfl, rfl, .raised .start _ _ _⟩
    · exact ⟨fun k => by cases k <;> rfl, rfl, .start⟩

theorem State.acceptCommand_keeps (s : State) : (∀ k, (s.acceptCommand data).link k = s.link k) ∧
    (s.acceptCommand data).now = s.now ∧ s.faults.Moves (fun k _ => k = .cmdSupervision) (s.acceptCommand data).faults := by
  simp only [State.acceptCommand, State.recoveryTest]
  split
  · exact ⟨fun k => by cases k <;> rfl, rfl, .cleared .start rfl⟩
  · exact ⟨fun k => by cases k <;> rfl, rfl, .start⟩

/-- Such a frame touches no link. -/
theorem State.operatorFrame_keeps (s : State) : (∀ k, (s.operatorFrame data).link k = s.link k) ∧
    (s.operatorFrame data).now = s.now ∧ s.faults.Moves (fun k _ => k = .cmdSupervision) (s.operatorFrame data).faults := by
  rw [State.operatorFrame]
  split
  · exact s.supervisorError_keeps
  · split
    · exact s.supervisorError_keeps
    · exact s.acceptCommand_keeps

/-- What a matched frame's own effects do to the links: nothing. -/
theorem State.takeFrame_forwards (h : MatchedTo s l f e) :
    let v := (s.heardOn time l).takeFrame l false f
    (∀ k, v.link k = { ((s.heardOn time l).forward l e f).link k with offer := (v.link k).offer }) ∧
      v.now = ((s.heardOn time l).forward l e f).now ∧
      ((s.heardOn time l).forward l e f).faults.Holds .passageDrop l.other.index v.faults := by
  intro v
  simp only [v]
  clear v
  cases kind : e.kind with
  | unused => exact absurd kind h.2.1.2.1
  | signal =>
    rw [State.takeFrame_signal h kind]
    generalize (s.heardOn time l).forward l e f = w
    obtain ⟨slots, faults, moves, change⟩ := w.applyUpdates_acts (extractAll e f.data)
    have same (k : Link) : (w.relaid slots w.intake.mapBefore faults).link k = w.link k := by cases k <;> rfl
    refine ⟨fun k => ?_, change.now, (moves.mono fun k i lost => ?_).trans (change.faults.holds _ rfl)⟩
    · have link := change.reacts.link k
      rwa [same] at link
    · rw [lost]
      exact fun h => nomatch h.1
  | operator =>
    rw [State.takeFrame_operator h kind]
    generalize (s.heardOn time l).forward l e f = w
    obtain ⟨links, now, moves⟩ := w.operatorFrame_keeps (data := f.data)
    refine ⟨fun k => by rw [links k], now, moves.mono fun k i supervision => ?_⟩
    rw [supervision]
    exact fun h => nomatch h.1

end

/-- Settles O17. -/
theorem matchedFrameIsForwardedWhenFlagged : Obligations.MatchedFrameIsForwardedWhenFlagged := by
  intro s time l f e c reset on matched command
  have heard := s.heardOn_fields time l
  obtain ⟨links, now, faults⟩ := State.takeFrame_forwards (time := time) matched
  have received : exec c s = .next ((s.heardOn time l).takeFrame l false (rxFrame f)).settled := by
    rw [← State.receive_heard reset on]
    rcases command with rfl | rfl <;> rfl
  refine ⟨_, received, ?_⟩
  have events := ((s.heardOn time l).takeFrame l false (rxFrame f)).settled_reacts
  generalize ((s.heardOn time l).takeFrame l false (rxFrame f)).settled = t at events ⊢
  generalize (s.heardOn time l).takeFrame l false (rxFrame f) = v at links now faults events
  have other : s.link l.other = (s.heardOn time l).link l.other := (heard.others _ (other_ne l)).symm
  rw [State.forward_eq] at links now faults
  have place : ({ (s.heardOn time l).setLink l.other ((s.heardOn time l).passageAfter l.other e (rxFrame f)) with
      faults := (s.heardOn time l).passageFaults l.other e } : State).link l.other =
      (s.heardOn time l).passageAfter l.other e (rxFrame f) := by cases l <;> rfl
  have clock : t.now = (s.heardOn time l).now := by
    rw [events.now, now]
    cases l <;> rfl
  rw [events.link, links, place, clock, other]
  refine ⟨rfl, rfl, fun full => ?_⟩
  have raised : ((s.heardOn time l).faults.raised .passageDrop l.other.index
      (some ((s.heardOn time l).now + 1000 * Config.msTicks))).Holds .passageDrop l.other.index v.faults := by
    have dropped : (s.heardOn time l).passageFaults l.other e = _ := if_pos full
    rw [← dropped]
    exact faults
  have before : s.faults.Moves (fun _ _ => True) (s.heardOn time l).faults := by
    rw [heard.faults]
    exact .cleared (.cleared .start trivial) trivial
  exact Faults.Holds.raises before (raised.trans (events.faults.holds _ rfl))

end Sys2Proof.Machine

/-! ### Discarded operator frames and the late timer, the run timer (R172, R174, R175) -/

namespace Sys2Proof.Machine

section

variable {s t : State} {l : Link} {time x : Time} {e : MapEntry} {f : Frame} {data : List Byte}

/-! ### An error at the Command Supervisor (R175) -/

/-- The supervisor after an error, at its trip level. -/
def Supervisor.erred (v : Supervisor) (trip : Nat) : Supervisor := { v with
  errors := min 255 (v.errors + 1)
  tripped := v.tripped || decide (trip ≤ min 255 (v.errors + 1))
  goodRun := if v.tripped || decide (trip ≤ min 255 (v.errors + 1)) then 0 else v.goodRun }

/-- An error that trips the supervisor raises CMD_SUPERVISION and brings a cause evaluation. -/
theorem State.supervisorError_trips (ok : s.supervisor.tripped = false)
    (trips : s.superT.trip ≤ min 255 (s.supervisor.errors + 1)) : s.supervisorError = { s with
      supervisor := s.supervisor.erred s.superT.trip
      faults := s.faults.raised .cmdSupervision 0 (some (s.now + 1000 * Config.msTicks))
      notices := s.notices ++ [.causes] } := by
  rw [State.supervisorError_eq]
  simp only [ok, trips, Bool.false_eq_true, if_false, if_true, Supervisor.erred, decide_true, Bool.or_true]
  rfl

/-- Any other error changes the supervisor alone. -/
theorem State.supervisorError_counts
    (h : s.supervisor.tripped = true ∨ ¬ s.superT.trip ≤ min 255 (s.supervisor.errors + 1)) :
    s.supervisorError = { s with supervisor := s.supervisor.erred s.superT.trip } := by
  rw [State.supervisorError_eq]
  cases tripped : s.supervisor.tripped with
  | true => simp only [tripped, if_true, Supervisor.erred, Bool.true_or]
  | false =>
    have low : ¬ s.superT.trip ≤ min 255 (s.supervisor.errors + 1) := h.resolve_left (by rw [tripped]; nofun)
    simp only [tripped, low, Bool.false_eq_true, if_false, Supervisor.erred, decide_false, Bool.or_false]

/-- What an error leaves of the other blocks, and the fault of a trip. -/
structure SupervisorErred (s t : State) : Prop where
  supervisor : t.supervisor = s.supervisor.erred s.superT.trip
  now : t.now = s.now
  intake : t.intake = s.intake
  tables : t.tables = s.tables
  mgmt : t.mgmt = s.mgmt
  draft : t.draft = s.draft
  mail : t.mail.reply = s.mail.reply
  fault : s.supervisor.tripped = false → t.supervisor.tripped = true →
    (s.faults.raised .cmdSupervision 0 (some (s.now + 1000 * Config.msTicks))).Holds .cmdSupervision 0 t.faults

/-- An error, and the events that follow. -/
theorem State.supervisorError_settles (s : State) : SupervisorErred s s.supervisorError.settled := by
  have events := s.supervisorError.settled_reacts
  generalize s.supervisorError.settled = t at events ⊢
  have reply : t.mail.reply = s.supervisorError.mail.reply := events.mailbox (id := .reply) nofun
  by_cases trips : s.supervisor.tripped = false ∧ s.superT.trip ≤ min 255 (s.supervisor.errors + 1)
  · rw [State.supervisorError_trips trips.1 trips.2] at events reply
    exact {
      supervisor := events.supervisor, now := events.now, intake := events.intake, tables := events.tables
      mgmt := events.mgmt, draft := events.draft, mail := reply, fault := fun _ _ => events.faults.holds _ rfl }
  · have counts : s.supervisor.tripped = true ∨ ¬ s.superT.trip ≤ min 255 (s.supervisor.errors + 1) := by
      rw [Classical.not_and_iff_not_or_not, Bool.not_eq_false] at trips
      exact trips
    rw [State.supervisorError_counts counts] at events reply
    exact {
      supervisor := events.supervisor, now := events.now, intake := events.intake, tables := events.tables
      mgmt := events.mgmt, draft := events.draft, mail := reply
      fault := fun ok tripped => by
        rw [events.supervisor] at tripped
        rcases (Bool.or_eq_true ..).mp tripped with before | now
        · exact absurd (ok.symm.trans before) Bool.false_ne_true
        · exact absurd ⟨ok, of_decide_eq_true now⟩ trips }

/-! ### The test of a frame (R174) -/

theorem State.tooEarly_iff (s : State) : s.tooEarly = true ↔
    ∃ t0, s.supervisor.lastAccepted = some t0 ∧ s.now - t0 < s.superT.tMinMs * Config.msTicks := by
  rw [State.tooEarly]
  cases s.supervisor.lastAccepted with
  | none => exact ⟨nofun, fun ⟨_, absurd, _⟩ => nomatch absurd⟩
  | some t0 =>
    refine decide_eq_true_iff.trans ⟨fun early => ⟨t0, rfl, early⟩, ?_⟩
    rintro ⟨t1, same, early⟩
    cases same
    exact early

/-- An early frame or one with the wrong token is an error. -/
theorem State.operatorFrame_discarded (h : s.tooEarly = true ∨ dataAt data 0 ≠ s.supervisor.token) :
    s.operatorFrame data = s.supervisorError := by
  rw [State.operatorFrame]
  split
  · rfl
  · exact if_pos (h.resolve_left ‹_›)

/-- What a frame finds at the Command Supervisor: a forwarded copy has left it as it was. -/
structure FrameFinds (s u : State) (time : Time) : Prop where
  now : u.now = max s.now time
  supervisor : u.supervisor = s.supervisor
  intake : u.intake = s.intake
  tables : u.tables = s.tables
  mgmt : u.mgmt = s.mgmt
  draft : u.draft.record = s.draft.record
  mail : u.mail = s.mail
  emission : u.emission = s.emission
  faults : s.faults.Moves (fun _ _ => True) u.faults

theorem State.forward_finds (s : State) (time : Time) (l : Link) (e : MapEntry) (f : Frame) :
    FrameFinds s ((s.heardOn time l).forward l e f) time := by
  have heard := s.heardOn_fields time l
  have before : s.faults.Moves (fun _ _ => True) (s.heardOn time l).faults := by
    rw [heard.faults]
    exact .cleared (.cleared .start trivial) trivial
  have dropped : s.faults.Moves (fun _ _ => True) ((s.heardOn time l).passageFaults l.other e) := by
    rw [State.passageFaults]
    split
    · exact .raised before _ _ _
    · exact before
  rw [State.forward_eq]
  generalize (s.heardOn time l).passageFaults l.other e = faults at dropped
  generalize (s.heardOn time l).passageAfter l.other e f = c
  generalize s.heardOn time l = v at heard
  have same : FrameFinds s { v with faults := faults } time :=
    ⟨heard.now, heard.supervisor, heard.intake, heard.tables, heard.mgmt, heard.draft, heard.mail, heard.emission, dropped⟩
  cases l <;> exact { same with }

end

/-- Settles O20: the frame is an error, whichever of the two tests it fails. -/
theorem discardedOperatorFrameIsAnError : Obligations.DiscardedOperatorFrameIsAnError := by
  intro s time l f e reset on matched kind discarded
  have found := s.forward_finds time l e (rxFrame f)
  refine ⟨_, congrArg Host.Outcome.next (State.receive_heard reset on), ?_⟩
  rw [State.takeFrame_operator matched kind]
  generalize (s.heardOn time l).forward l e (rxFrame f) = u at found ⊢
  have limits : u.superT = s.superT := congrArg supervisionTable (State.inUse_of_tables found.tables .supervision)
  have fails : u.tooEarly = true ∨ dataAt (rxFrame f).data 0 ≠ u.supervisor.token := by
    rw [State.tooEarly_iff, found.supervisor, found.now, limits]
    exact discarded
  have erred := u.supervisorError_settles
  rw [State.operatorFrame_discarded fails]
  generalize u.supervisorError.settled = t at erred ⊢
  have supervisor : t.supervisor = s.supervisor.erred s.superT.trip := by
    rw [erred.supervisor, found.supervisor, limits]
  have fault := erred.fault
  rw [found.supervisor] at fault
  refine ⟨erred.intake.trans found.intake, by rw [supervisor]; rfl, by rw [supervisor]; rfl, by rw [supervisor]; rfl,
    by rw [supervisor]; rfl, by rw [supervisor]; rfl, by rw [supervisor]; rfl, fun ok trips => ?_,
    erred.tables.trans found.tables, erred.mgmt.trans found.mgmt, (congrArg Draft.record erred.draft).trans found.draft,
    erred.mail.trans (congrArg Mailboxes.reply found.mail)⟩
  exact Faults.Holds.raises found.faults (fault ok trips)

section

variable {s t u : State} {x : Time} {n : Notice} {P : State → Prop}

/-! ### What every order of the events leads to -/

theorem State.settled_of_orders (free : ∀ (t : State) (m : Nat), P t → P { t with free := m })
    (each : ∀ t, Ordered Config.settleFuel s t → P t) : P s.settled := by
  obtain ⟨alike, differ⟩ := s.settled_anyOrder
  by_cases same : ∀ u v, Ordered Config.settleFuel s u → Ordered Config.settleFuel s v → u = v
  · exact each _ (alike same)
  · obtain ⟨m, -, ⟨u, order, picked⟩, -⟩ := differ same
    rw [picked]
    exact free u _ (each u order)

/-- A list of one event, taken apart at an event. -/
theorem single_split {before after : List Notice} {m : Notice} (h : [n] = before ++ m :: after) :
    before = [] ∧ m = n ∧ after = [] := by
  cases before with
  | nil => cases h; exact ⟨rfl, rfl, rfl⟩
  | cons b bs =>
    have length := congrArg List.length h
    simp only [List.length_cons, List.length_nil, List.length_append] at length
    omega

/-- When one event waits, what holds after it is taken and is kept by every later event holds at the end. -/
theorem State.settled_single (one : s.notices = [n]) (free : ∀ (t : State) (m : Nat), P t → P { t with free := m })
    (drop : ∀ (t : State) (l : List Notice), P t → P { t with notices := l }) (take : ∀ m t, P t → P (t.takeNotice m))
    (first : P (({ s with notices := [] } : State).takeNotice n)) : P s.settled := by
  refine State.settled_of_orders free fun t order => ?_
  cases order with
  | done empty =>
    rw [one] at empty
    cases empty
  | take waits _ rest =>
    obtain ⟨rfl, rfl, rfl⟩ := single_split (one.symm.trans waits)
    exact rest.keeps (fun t before m after _ h => take m _ (drop t (before ++ after) h)) first

/-! ### A trip of the supervisor in RUN (R170) -/

theorem State.causeEval_degrades (run : s.mode.op = .run) (stop : s.safeStopCause = false)
    (degraded : s.degradedCause = true) : s.causeEval = s.setOp .degraded := by
  simp only [State.causeEval, run, stop, degraded, Bool.false_eq_true, if_false, if_true]

/-- In DEGRADED, with its cause present and no cause of SAFE_STOP, the operating state stays. -/
theorem State.parked_degraded (op : s.mode.op = .degraded) (stop : s.safeStopCause = false)
    (degraded : s.degradedCause = true) : s.Parked :=
  .inr (.inr (.inr (.inr (.inr ⟨op, stop, degraded⟩))))

/-- A cause of DEGRADED that appears in RUN, announced alone. -/
theorem State.settled_degrades (one : s.notices = [.causes]) (run : s.mode.op = .run) (stop : s.safeStopCause = false)
    (degraded : s.degradedCause = true) : s.settled.mode.op = .degraded := by
  have enters : ({ s with notices := [] } : State).takeNotice .causes = ({ s with notices := [] } : State).setOp .degraded :=
    State.causeEval_degrades (s := { s with notices := [] }) run stop degraded
  have change := State.setOp_reacts { s with notices := [] } .degraded
  have mode := State.setOp_mode { s with notices := [] } .degraded
  generalize ({ s with notices := [] } : State).setOp .degraded = u at enters change mode
  have op : u.mode.op = .degraded := congrArg Mode.op mode
  have parked : u.Parked := State.parked_degraded op (change.causes.1.trans stop) (change.causes.2.trans degraded)
  have events : Acts u s.settled :=
    State.settled_single (P := Acts u) one (fun _ m k => k.withFree m) (fun _ l k => k.withNotices l)
      (fun m _ k => State.takeNotice_acts k m (fun _ => (parked.acts k).causeEval) fun _ => (parked.acts k).exitTest)
      (enters ▸ .refl u)
  exact (congrArg Mode.op events.mode).trans op

/-! ### The timers -/

/-- The late timer at its expiry: it starts again, and the frame that did not come is an error. -/
def State.lateRestarted (s : State) (x : Time) : State :=
  { s.expire (some x) with supervisor := { s.supervisor with late := some (max s.now x + s.superT.tMaxMs * Config.msTicks) } }

theorem State.lateExpired_running (runs : s.supervisor.late = some x) : s.lateExpired = (s.lateRestarted x).supervisorError := by
  rw [State.lateExpired, runs]
  rfl

/-- What the error of a late frame does to the operating state and to the Fault List. -/
theorem State.supervisorError_mode (quiet : s.notices = []) :
    (s.supervisor.tripped = false → s.supervisorError.settled.supervisor.tripped = true → s.mode.op = .run →
      s.safeStopCause = false → s.supervisorError.settled.mode.op = .degraded) ∧
    (s.supervisorError.settled.supervisor.tripped = s.supervisor.tripped →
      s.supervisorError.settled.mode = s.mode ∧ s.supervisorError.settled.faults = s.faults) := by
  have erred := s.supervisorError_settles.supervisor
  by_cases trips : s.supervisor.tripped = false ∧ s.superT.trip ≤ min 255 (s.supervisor.errors + 1)
  · have tripped : s.supervisorError.settled.supervisor.tripped = true := by
      rw [erred]
      exact (Bool.or_eq_true ..).mpr (.inr (decide_eq_true trips.2))
    refine ⟨fun _ _ run stop => ?_, fun same => ?_⟩
    · have error := State.supervisorError_trips trips.1 trips.2
      rw [error]
      refine State.settled_degrades ?_ run stop ?_
      · exact congrArg (· ++ [Notice.causes]) quiet
      · have here : (s.supervisor.erred s.superT.trip).tripped = true :=
          (Bool.or_eq_true ..).mpr (.inr (decide_eq_true trips.2))
        simp only [State.degradedCause, here, Bool.true_or]
    · exact absurd (same.symm.trans tripped) (by rw [trips.1]; nofun)
  · have counts : s.supervisor.tripped = true ∨ ¬ s.superT.trip ≤ min 255 (s.supervisor.errors + 1) := by
      rw [Classical.not_and_iff_not_or_not, Bool.not_eq_false] at trips
      exact trips
    have error := State.supervisorError_counts counts
    have still : s.supervisorError.settled = s.supervisorError := State.settled_nil (by rw [error]; exact quiet)
    rw [still, error]
    refine ⟨fun ok tripped => ?_, fun _ => ⟨rfl, rfl⟩⟩
    rcases (Bool.or_eq_true ..).mp tripped with before | now
    · exact absurd (ok.symm.trans before) Bool.false_ne_true
    · exact absurd ⟨ok, of_decide_eq_true now⟩ trips

end

/-- Settles O58. -/
theorem runAndLateTimersPass : Obligations.RunAndLateTimersPass := by
  intro s ready
  refine ⟨fun x runs => ?_, fun none => ?_, fun x runs => ?_, fun none => ?_⟩
  · refine (next_expiry (timer := fun s => s.mode.runTimer) ready.1 runs).trans ?_
    rw [State.runPassed, runs]
    rfl
  · exact next_no_expiry (timer := fun s => s.mode.runTimer) ready.1 none
  · refine ⟨_, next_expiry (timer := fun s => s.supervisor.late) ready.1 runs, ?_⟩
    rw [State.lateExpired_running runs]
    have erred := (s.lateRestarted x).supervisorError_settles
    obtain ⟨degrades, stays⟩ := State.supervisorError_mode (s := s.lateRestarted x) ready.2
    generalize (s.lateRestarted x).supervisorError.settled = t at *
    have supervisor : t.supervisor = (s.lateRestarted x).supervisor.erred s.superT.trip := erred.supervisor
    have now : t.now = max s.now x := erred.now
    refine ⟨now, by rw [supervisor]; rfl, by rw [supervisor, now]; rfl, by rw [supervisor]; rfl, by rw [supervisor]; rfl,
      by rw [supervisor]; rfl, by rw [supervisor]; rfl, fun ok trips => ⟨?_, fun run stop => ?_⟩, stays, erred.intake,
      erred.tables⟩
    · rw [now]
      exact erred.fault ok trips
    · exact degrades ok trips run (Bool.eq_false_iff.2 (mt s.safeStopCause_iff.1 stop))
  · exact next_no_expiry (timer := fun s => s.supervisor.late) ready.1 none

end Sys2Proof.Machine

/-! ### Draft capture: the measurements (R110 to R114) -/

namespace Sys2Proof.Machine

section

variable {s t u : State} {d : Draft} {edges : List Nat} {p : CapturePos} {n x q : Nat} {c : Instr}

/-! ### The parts of a measurement's end -/

theorem State.beginMeasurement_begun (s : State) (p : CapturePos) : Begun (s.beginMeasurement p) p :=
  ⟨rfl, rfl, rfl, rfl, by rintro (rfl | rfl) <;> rfl⟩

/-- A result of a channel, and its fault (R114). -/
theorem State.channelResult_after (s : State) (c : Channel) (valid : Bool) : s.channelResult c valid = { s with
    draft := s.draft.setChannel c ((s.draft.channel c).after valid)
    faults := s.faults.afterResult (s.draft.channel c) valid c.index s.now } := by
  rw [State.channelResult_eq, State.channelResult_faults]
  rfl

/-- The time base moves on to the end of the measurement; the counters stand as they were counted. -/
theorem State.measured_eq (s : State) (x : Nat) (edges : List Nat) : s.measured x edges = { s with
    now := s.now + (x - s.draft.timeCount)
    draft := { s.draft with
      timeCount := (s.measured x edges).draft.timeCount, edgeCount := (s.draft.edgesTaken edges).1 } } := by
  have moved := s.untilCount_eq x
  rw [State.measured]
  generalize s.untilCount x = u at moved ⊢
  rw [moved]
  rfl

/-- The edges of a REF measurement (R111). -/
theorem Draft.edgesTaken_ref (h : d.pos = .refLeft ∨ d.pos = .refRight) (edges : List Nat) :
    d.edgesTaken edges = countEdges d.gate 4095 d.edgeCount edges := by
  rcases h with h | h <;> simp only [Draft.edgesTaken, Draft.limit, h, overrange]

/-- The edges of the counting stage of a sensor measurement (R112). -/
theorem Draft.edgesTaken_counting (h : d.pos = .left ∨ d.pos = .right) (counting : d.counting = true) {e : Nat}
    (eRef : d.eRef = some e) (edges : List Nat) : d.edgesTaken edges = countEdges 65535 e d.edgeCount edges := by
  rcases h with h | h <;> simp only [Draft.edgesTaken, Draft.limit, h, counting, if_true, eRef, Option.getD_some]

theorem Draft.CountsTo.counted {limit stop : Nat} (h : d.CountsTo edges limit stop x) :
    countEdges limit stop d.edgeCount edges = (stop, some x) := by
  obtain ⟨taken, rest, rfl, within, last, count⟩ := h
  exact countEdges_reaches taken d.edgeCount within last count

theorem Draft.CountsWithin.counted {limit stop : Nat} (h : d.CountsWithin edges limit stop n) :
    countEdges limit stop d.edgeCount edges = (n, none) := by
  obtain ⟨taken, rest, rfl, within, late, rfl, below⟩ := h
  exact countEdges_within late taken d.edgeCount within below

/-- An overrange is an edge that falls on the time counter's value and is the last that the edge counter counts. -/
theorem Draft.CountsTo.overrange (low : d.edgeCount < 4095) (inGate : d.timeCount ≤ d.gate) :
    d.CountsTo (List.replicate (4095 - d.edgeCount) d.timeCount) d.gate 4095 d.timeCount := by
  refine ⟨List.replicate (4095 - d.edgeCount - 1) d.timeCount, [], ?_, fun y mem => ?_, inGate, ?_⟩
  · rw [← List.replicate_succ', Nat.sub_add_cancel (by omega)]
  · rw [List.eq_of_mem_replicate mem]
    exact inGate
  · rw [List.length_replicate]
    omega

theorem CapturePos.isRef_iff : p.isRef = true ↔ p = .refLeft ∨ p = .refRight := by
  cases p <;> simp [CapturePos.isRef]

theorem CapturePos.isRef_false : p.isRef = false ↔ p = .left ∨ p = .right := by
  cases p <;> simp [CapturePos.isRef]

/-! ### A REF measurement (R111) -/

theorem State.refMeasured_reaches (h : s.draft.edgesTaken edges = (n, some x)) :
    s.refMeasured edges = (s.measured x edges).refEnded none := by
  simp only [State.refMeasured, h]

theorem State.refMeasured_within (h : s.draft.edgesTaken edges = (n, none)) :
    s.refMeasured edges = (s.measured s.draft.gate edges).refEnded (if 16 ≤ n then some n else none) := by
  have count : (s.measured s.draft.gate edges).draft.gateOutcome = if 16 ≤ n then some n else none := by
    rw [State.measured_eq, h]
    rfl
  simp only [State.refMeasured, h, count]

/-- A command that ends a REF measurement. -/
theorem exec_refGateEnd (reset : s.resetting = none) (ref : s.draft.pos = .refLeft ∨ s.draft.pos = .refRight) :
    exec (.refGateEnd edges) s = .next (s.refMeasured edges) :=
  (next_unlessReset reset).trans (congrArg _ (if_pos (CapturePos.isRef_iff.2 ref)))

/-- The commands with which a REF measurement fails end it with no E_ref. -/
theorem exec_refFails (reset : s.resetting = none) (ref : s.draft.pos = .refLeft ∨ s.draft.pos = .refRight)
    (fails : RefFails c s.draft x) : ∃ edges, exec c s = .next ((s.measured x edges).refEnded none) := by
  rcases fails with ⟨rfl, low, inGate, rfl⟩ | ⟨edges, rfl, counts⟩ | ⟨edges, n, rfl, counts, under, rfl⟩
  · have counts := Draft.CountsTo.overrange low inGate
    refine ⟨List.replicate (4095 - s.draft.edgeCount) s.draft.timeCount, ?_⟩
    have taken := (Draft.edgesTaken_ref ref _).trans counts.counted
    rw [← State.refMeasured_reaches taken]
    exact (next_unlessReset reset).trans (congrArg _ (if_pos (CapturePos.isRef_iff.2 ref)))
  · have taken := (Draft.edgesTaken_ref ref _).trans counts.counted
    exact ⟨edges, by rw [exec_refGateEnd reset ref, State.refMeasured_reaches taken]⟩
  · have taken := (Draft.edgesTaken_ref ref _).trans counts.counted
    refine ⟨edges, ?_⟩
    rw [exec_refGateEnd reset ref, State.refMeasured_within taken, if_neg (Nat.not_le.2 under)]

/-- The state at the end of a REF measurement, the result of the channel REF taken. -/
def State.refResult (s : State) (e : Option Nat) : State := { s with
  draft := { s.draft with eRef := e, chRef := s.draft.chRef.after e.isSome }
  faults := s.faults.afterResult s.draft.chRef e.isSome 0 s.now }

theorem State.refEnded_valid (ref : s.draft.pos = .refLeft ∨ s.draft.pos = .refRight) (n : Nat) : s.refEnded (some n) =
    (s.refResult (some n)).beginMeasurement (if s.draft.pos = .refLeft then .left else .right) := by
  have result : ((s.withDraft fun d => { d with eRef := some n }).channelResult .ref true) = s.refResult (some n) :=
    State.channelResult_after _ _ _
  have pos : (s.refResult (some n)).draft.pos = s.draft.pos := rfl
  simp only [State.refEnded, Option.isSome_some, result, pos]
  rcases ref with ref | ref <;> simp only [ref, if_true, reduceCtorEq, if_false]

theorem State.refEnded_left_failed (ref : s.draft.pos = .refLeft) : s.refEnded none =
    ((s.refResult none).withDraft fun d => { d with refFailL := true, qL := none }).beginMeasurement .refRight := by
  have result : ((s.withDraft fun d => { d with eRef := none }).channelResult .ref false) = s.refResult none :=
    State.channelResult_after _ _ _
  have pos : (s.refResult none).draft.pos = .refLeft := ref
  simp only [State.refEnded, Option.isSome_none, result, pos]

end

/-- Settles O50. -/
theorem refMeasurementGivesEdgesOrFails : Obligations.RefMeasurementGivesEdgesOrFails := by
  intro s reset d moved
  refine ⟨fun edges sensor => ?_, fun edges n ref counts enough => ?_, fun c x left fails => ?_⟩
  · have outside : s.draft.pos.isRef = false := CapturePos.isRef_false.2 sensor
    have still : ¬ s.draft.pos.isRef = true := by rw [outside]; nofun
    exact ⟨(next_unlessReset reset).trans (congrArg _ (if_neg still)),
      (next_unlessReset reset).trans (congrArg _ (if_neg still))⟩
  · have taken := (Draft.edgesTaken_ref ref edges).trans counts.counted
    refine ⟨_, exec_refGateEnd reset ref, ?_⟩
    rw [State.refMeasured_within taken, if_pos enough]
    have measured := s.measured_eq s.draft.gate edges
    generalize s.measured s.draft.gate edges = u at measured ⊢
    have pos : u.draft.pos = s.draft.pos := by rw [measured]
    rw [State.refEnded_valid (pos ▸ ref), pos]
    have begun := (u.refResult (some n)).beginMeasurement_begun (if s.draft.pos = .refLeft then .left else .right)
    have chRef : u.draft.chRef = s.draft.chRef := by rw [measured]
    have faults : u.faults = s.faults := by rw [measured]
    refine ⟨congrArg State.now measured, begun, rfl, ?_, ?_, congrArg (·.draft.record) measured⟩
    · exact congrArg (·.after true) chRef
    · show u.faults.afterResult u.draft.chRef true 0 u.now = s.faults.afterResult s.draft.chRef true 0 u.now
      rw [chRef, faults]
  · obtain ⟨edges, ended⟩ := exec_refFails reset (.inl left) fails
    refine ⟨_, ended, ?_⟩
    have measured := s.measured_eq x edges
    generalize s.measured x edges = u at measured ⊢
    have pos : u.draft.pos = .refLeft := by rw [measured]; exact left
    have chRef : u.draft.chRef = s.draft.chRef := by rw [measured]
    have faults : u.faults = s.faults := by rw [measured]
    rw [State.refEnded_left_failed pos]
    have begun := ((u.refResult none).withDraft fun d => { d with refFailL := true, qL := none }).beginMeasurement_begun .refRight
    refine ⟨congrArg State.now measured, begun, rfl, rfl, rfl, congrArg (·.after false) chRef, congrArg (·.draft.chL) measured, ?_,
      congrArg (·.draft.record) measured⟩
    show u.faults.afterResult u.draft.chRef false 0 u.now = s.faults.afterResult s.draft.chRef false 0 u.now
    rw [chRef, faults]

section

variable {s t u : State} {d : Draft} {edges : List Nat} {p : CapturePos} {n x q : Nat} {c : Instr} {h : ChannelHealth}

/-! ### A sensor measurement (R112) -/

/-- The state at the end of a sensor measurement on a side, the result of its channel taken. -/
def State.leftResult (s : State) (q : Option Nat) : State := { s with
  draft := { s.draft with qL := q, chL := s.draft.chL.after q.isSome }
  faults := s.faults.afterResult s.draft.chL q.isSome 1 s.now }

def State.rightResult (s : State) (q : Option Nat) : State := { s with
  draft := { s.draft with qR := q, chR := s.draft.chR.after q.isSome }
  faults := s.faults.afterResult s.draft.chR q.isSome 2 s.now }

theorem State.sensorEnded_left (h : s.draft.pos = .left) (q : Option Nat) :
    s.sensorEnded q = (s.leftResult q).beginMeasurement .refRight := by
  have result : (s.withDraft fun d => { d with qL := q }).channelResult .l q.isSome = s.leftResult q :=
    State.channelResult_after _ _ _
  simp only [State.sensorEnded, h, result]

theorem State.sensorEnded_right (h : s.draft.pos = .right) (q : Option Nat) :
    s.sensorEnded q = (s.rightResult q).cycleEnd := by
  have result : (s.withDraft fun d => { d with qR := q }).channelResult .r q.isSome = s.rightResult q :=
    State.channelResult_after _ _ _
  simp only [State.sensorEnded, h, result]

theorem exec_sensorMeasurementEnd (reset : s.resetting = none) (sensor : s.draft.pos = .left ∨ s.draft.pos = .right)
    (counting : s.draft.counting = true) : exec (.sensorMeasurementEnd edges) s = .next (s.sensorMeasured edges) :=
  (next_unlessReset reset).trans (congrArg _ (if_pos ⟨CapturePos.isRef_false.2 sensor, counting⟩))

theorem State.sensorMeasured_within (h : s.draft.edgesTaken edges = (n, none)) :
    s.sensorMeasured edges = (s.measured s.draft.limit edges).sensorEnded none := by
  simp only [State.sensorMeasured, h]

theorem Draft.limit_sensor (sensor : d.pos = .left ∨ d.pos = .right) : d.limit = 65535 := by
  rcases sensor with h | h <;> simp only [Draft.limit, h]

/-- A sensor measurement that ends valid. -/
theorem exec_sensorCounts (reset : s.resetting = none) (sensor : s.draft.pos = .left ∨ s.draft.pos = .right)
    (counts : SensorCounts c s.draft q) : ∃ edges, exec c s = .next ((s.measured q edges).sensorEnded (some q)) := by
  obtain ⟨edges, e, rfl, counting, eRef, reaches, positive⟩ := counts
  have taken := (Draft.edgesTaken_counting sensor counting eRef edges).trans reaches.counted
  obtain ⟨k, rfl⟩ : ∃ k, q = k + 1 := ⟨q - 1, (Nat.sub_add_cancel positive).symm⟩
  refine ⟨edges, ?_⟩
  rw [exec_sensorMeasurementEnd reset sensor counting, State.sensorMeasured]
  simp only [taken]

/-- A stall leaves no edge that reaches E_ref. -/
theorem State.sensorMeasured_nil (sensor : s.draft.pos = .left ∨ s.draft.pos = .right) :
    s.sensorMeasured [] = (s.measured 65535 []).sensorEnded none := by
  have taken : s.draft.edgesTaken [] = (s.draft.edgeCount, none) := by
    rcases sensor with h | h
    all_goals
      simp only [Draft.edgesTaken, h, countEdges]
      exact ite_self _
  rw [State.sensorMeasured_within taken, Draft.limit_sensor sensor]

/-- A sensor measurement that ends stalled. -/
theorem exec_sensorStalls (reset : s.resetting = none) (sensor : s.draft.pos = .left ∨ s.draft.pos = .right)
    (stalls : SensorStalls c s.draft) : ∃ edges, exec c s = .next ((s.measured 65535 edges).sensorEnded none) := by
  rcases stalls with rfl | ⟨edges, e, n, rfl, counting, eRef, counts⟩
  · have outside : ¬ s.draft.pos.isRef = true := by rw [CapturePos.isRef_false.2 sensor]; nofun
    refine ⟨[], ?_⟩
    rw [← State.sensorMeasured_nil sensor]
    exact (next_unlessReset reset).trans (congrArg _ (if_neg outside))
  · have taken := (Draft.edgesTaken_counting sensor counting eRef edges).trans counts.counted
    refine ⟨edges, ?_⟩
    rw [exec_sensorMeasurementEnd reset sensor counting, State.sensorMeasured_within taken, Draft.limit_sensor sensor]

theorem exec_firstEdge_counts (reset : s.resetting = none) (sensor : s.draft.pos = .left ∨ s.draft.pos = .right)
    (first : s.draft.counting = false) : exec .firstEdge s =
      .next { s with draft := { s.draft with timeCount := 0, edgeCount := 0, counting := true } } := by
  refine (next_unlessReset reset).trans (congrArg _ ?_)
  rw [State.firstEdgeSeen, CapturePos.isRef_false.2 sensor, first]
  rfl

theorem exec_firstEdge_ignored (reset : s.resetting = none)
    (h : ¬(s.draft.pos = .left ∨ s.draft.pos = .right) ∨ s.draft.counting = true) : exec .firstEdge s = .next s := by
  refine (next_unlessReset reset).trans (congrArg _ (if_pos ?_))
  rw [Bool.or_eq_true, ← Bool.not_eq_false s.draft.pos.isRef, CapturePos.isRef_false]
  exact h

theorem exec_sensorMeasurementEnd_ignored (reset : s.resetting = none)
    (h : ¬(s.draft.pos = .left ∨ s.draft.pos = .right) ∨ s.draft.counting = false) :
    exec (.sensorMeasurementEnd edges) s = .next s := by
  refine (next_unlessReset reset).trans (congrArg _ (if_neg ?_))
  rintro ⟨sensor, counting⟩
  exact h.elim (· (CapturePos.isRef_false.1 sensor)) fun stopped => Bool.false_ne_true (stopped.symm.trans counting)

/-! ### The runs of a channel (R114) -/

theorem ChannelHealth.after_valid_failed (ok : h.Ok) : (h.after true).failed = true ↔ h.failed = true ∧ h.validRun < 9 := by
  have := ok.validRun
  cases failed : h.failed with
  | false => simp [ChannelHealth.after, failed]
  | true =>
    simp only [ChannelHealth.after, failed, if_true, bne_iff_ne, true_and]
    omega

theorem ChannelHealth.after_invalid_failed (ok : h.Ok) :
    (h.after false).failed = true ↔ h.failed = true ∨ 2 ≤ h.invalidRun := by
  have := ok.invalidRun
  cases failed : h.failed with
  | true => simp [ChannelHealth.after, failed]
  | false =>
    simp only [ChannelHealth.after, failed, if_false, Bool.false_eq_true, beq_iff_eq, false_or]
    omega

end

/-- Settles O51. -/
theorem sensorMeasurementCountsOrStalls : Obligations.SensorMeasurementCountsOrStalls := by
  refine ⟨fun s reset => ?_, fun h ok => ⟨rfl, rfl, h.after_valid_failed ok, rfl, rfl, h.after_invalid_failed ok⟩⟩
  refine ⟨exec_firstEdge_counts reset, exec_firstEdge_ignored reset, fun edges => exec_sensorMeasurementEnd_ignored reset,
    fun c q left counts => ?_, fun c left stalls => ?_⟩
  · obtain ⟨edges, ended⟩ := exec_sensorCounts reset (.inl left) counts
    refine ⟨_, ended, ?_⟩
    have measured := s.measured_eq q edges
    generalize s.measured q edges = u at measured ⊢
    have pos : u.draft.pos = .left := by rw [measured]; exact left
    have chL : u.draft.chL = s.draft.chL := by rw [measured]
    have tables : u.tables = s.tables := by rw [measured]
    have faults : u.faults = s.faults := by rw [measured]
    rw [State.sensorEnded_left pos]
    have begun := (u.leftResult (some q)).beginMeasurement_begun .refRight
    refine ⟨congrArg State.now measured, begun, rfl, congrArg (·.after true) chL, ?_, congrArg (·.draft.record) measured,
      tables⟩
    show u.faults.afterResult u.draft.chL true 1 u.now = s.faults.afterResult s.draft.chL true 1 u.now
    rw [chL, faults]
  · obtain ⟨edges, ended⟩ := exec_sensorStalls reset (.inl left) stalls
    refine ⟨_, ended, ?_⟩
    have measured := s.measured_eq 65535 edges
    generalize s.measured 65535 edges = u at measured ⊢
    have pos : u.draft.pos = .left := by rw [measured]; exact left
    have chL : u.draft.chL = s.draft.chL := by rw [measured]
    have tables : u.tables = s.tables := by rw [measured]
    have faults : u.faults = s.faults := by rw [measured]
    rw [State.sensorEnded_left pos]
    have begun := (u.leftResult none).beginMeasurement_begun .refRight
    refine ⟨congrArg State.now measured, begun, rfl, congrArg (·.after false) chL, ?_, congrArg (·.draft.record) measured,
      tables⟩
    show u.faults.afterResult u.draft.chL false 1 u.now = s.faults.afterResult s.draft.chL false 1 u.now
    rw [chL, faults]

end Sys2Proof.Machine

/-! ### Draft capture: the end of a cycle (R115 to R119), and the zero capture (R187) -/

namespace Sys2Proof.Machine

section

variable {s t u v : State} {d : Draft} {edges : List Nat} {p : CapturePos} {n x q : Nat} {c : Instr}

/-! ### The Draft Record (R115, R116) -/

theorem sideDraft_value (q0 gain q : Nat) : DraftValue q0 gain q (sideDraft q0 gain q) := rfl

theorem draftRecordOf_record (t : HitchTable) (l r : Option Nat) : RecordOf t l r (draftRecordOf t l r) := by
  cases l with
  | none =>
    cases r with
    | none => rfl
    | some r => exact ⟨sideDraft_value _ _ _, rfl, rfl, rfl⟩
  | some l =>
    cases r with
    | none => exact ⟨sideDraft_value _ _ _, rfl, rfl, rfl⟩
    | some r => exact ⟨sideDraft_value _ _ _, sideDraft_value _ _ _, rfl, rfl⟩

/-- A side that is not good, or in a cycle that is not, is left out (R116). -/
theorem includedQ_eq (q : Option Nat) (side ref : ChannelHealth) (failL failR : Bool) :
    includedQ q side ref (failL || failR) =
      if ref.failed = false ∧ side.failed = false ∧ failL = false ∧ failR = false then q else none := by
  rw [includedQ]
  cases ref.failed <;> cases side.failed <;> cases failL <;> cases failR <;> rfl

/-! ### The end of a cycle -/

/-- The state at the end of a cycle, with the results that it has brought; they stand in `d`. -/
structure CycleResults (s v : State) (d : Draft) : Prop where
  sideL : v.draft.included .l = d.included .l
  sideR : v.draft.included .r = d.included .r
  chL : v.draft.chL = d.chL
  chR : v.draft.chR = d.chR
  chRef : v.draft.chRef = d.chRef
  tables : v.tables = s.tables
  intake : v.intake = s.intake
  hitch : v.hitch = s.hitch
  mail : v.mail = s.mail
  mgmt : v.mgmt = s.mgmt

theorem State.refEnded_right_failed (ref : s.draft.pos = .refRight) : s.refEnded none =
    ((s.refResult none).withDraft fun d => { d with refFailR := true, qR := none }).cycleEnd := by
  have result : ((s.withDraft fun d => { d with eRef := none }).channelResult .ref false) = s.refResult none :=
    State.channelResult_after _ _ _
  have pos : (s.refResult none).draft.pos = .refRight := ref
  simp only [State.refEnded, Option.isSome_none, result, pos]

/-- The three ways in which a cycle ends, with their results. -/
theorem exec_cycleEnds (reset : s.resetting = none) (ends : CycleEnds c s d) :
    ∃ v : State, exec c s = .next v.cycleEnd ∧ CycleResults s v d := by
  rcases ends with ⟨q, counts, right, rfl⟩ | ⟨stalls, right, rfl⟩ | ⟨⟨x, fails⟩, right, rfl⟩
  · obtain ⟨edges, ended⟩ := exec_sensorCounts reset (.inr right) counts
    have measured := s.measured_eq q edges
    generalize s.measured q edges = u at measured ended
    have pos : u.draft.pos = .right := by rw [measured]; exact right
    rw [State.sensorEnded_right pos] at ended
    refine ⟨_, ended, ?_⟩
    rw [measured]
    exact ⟨rfl, rfl, rfl, rfl, rfl, rfl, rfl, rfl, rfl, rfl⟩
  · obtain ⟨edges, ended⟩ := exec_sensorStalls reset (.inr right) stalls
    have measured := s.measured_eq 65535 edges
    generalize s.measured 65535 edges = u at measured ended
    have pos : u.draft.pos = .right := by rw [measured]; exact right
    rw [State.sensorEnded_right pos] at ended
    refine ⟨_, ended, ?_⟩
    rw [measured]
    exact ⟨rfl, rfl, rfl, rfl, rfl, rfl, rfl, rfl, rfl, rfl⟩
  · obtain ⟨edges, ended⟩ := exec_refFails reset (.inr right) fails
    have measured := s.measured_eq x edges
    generalize s.measured x edges = u at measured ended
    have pos : u.draft.pos = .refRight := by rw [measured]; exact right
    rw [State.refEnded_right_failed pos] at ended
    refine ⟨_, ended, ?_⟩
    rw [measured]
    exact ⟨rfl, rfl, rfl, rfl, rfl, rfl, rfl, rfl, rfl, rfl⟩

/-- The state when a cycle has ended and its record is formed, before a zero capture takes the results. -/
def State.recorded (v : State) : State := v.withDraft fun d => { d with
  record := draftRecordOf v.hitchT (d.included .l) (d.included .r)
  qL := none, qR := none, refFailL := false, refFailR := false }

theorem State.cycleEnd_eq (v : State) : v.cycleEnd =
    (v.recorded.captureCycle (v.draft.included .l) (v.draft.included .r)).beginMeasurement .refLeft := by
  have l : includedQ v.draft.qL v.draft.chL v.draft.chRef (v.draft.refFailL || v.draft.refFailR) = v.draft.included .l :=
    includedQ_eq _ _ _ _ _
  have r : includedQ v.draft.qR v.draft.chR v.draft.chRef (v.draft.refFailL || v.draft.refFailR) = v.draft.included .r :=
    includedQ_eq _ _ _ _ _
  rw [State.cycleEnd, l, r]
  rfl

/-! ### The zero capture at the end of a cycle (R187) -/

/-- Table 8 has no block that takes a change of it at once. -/
theorem State.loadTable_hitch (s : State) (ws : List TWord) : s.loadTable .hitch ws = s.setTable .hitch ⟨.uncommitted, ws⟩ := by
  simp only [State.loadTable, State.tableChanged]
  exact ite_self _

/-- What a zero capture writes when a cycle ends. -/
structure CaptureWrites (s t : State) : Prop where
  draft : t.draft = s.draft
  intake : t.intake = s.intake
  hitch : t.hitch = s.hitch
  idle : s.mgmt.capture = none → t = s

theorem State.captureCycle_writes (s : State) (l r : Option Nat) : CaptureWrites s (s.captureCycle l r) := by
  rw [State.captureCycle]
  cases capture : s.mgmt.capture with
  | none => exact ⟨rfl, rfl, rfl, fun _ => rfl⟩
  | some x =>
    simp only
    split
    · rw [State.captureDone, State.loadTable_hitch]
      exact ⟨rfl, rfl, rfl, fun idle => nomatch capture.symm.trans idle⟩
    · split <;> exact ⟨rfl, rfl, rfl, fun idle => nomatch capture.symm.trans idle⟩

end

/-- Settles O52. -/
theorem cycleEndFormsTheDraftRecord : Obligations.CycleEndFormsTheDraftRecord := by
  intro c s d reset ends
  obtain ⟨v, ended, results⟩ := exec_cycleEnds reset ends
  refine ⟨_, ended, ?_⟩
  rw [State.cycleEnd_eq]
  have writes := v.recorded.captureCycle_writes (v.draft.included .l) (v.draft.included .r)
  generalize v.recorded.captureCycle (v.draft.included .l) (v.draft.included .r) = w at writes ⊢
  have draft : (w.beginMeasurement .refLeft).draft.record = draftRecordOf v.hitchT (v.draft.included .l) (v.draft.included .r) :=
    congrArg Draft.record writes.draft
  have table : v.hitchT = s.hitchT := congrArg hitchTable (State.inUse_of_tables results.tables .hitch)
  have record := draftRecordOf_record s.hitchT (d.included .l) (d.included .r)
  rw [table, results.sideL, results.sideR] at draft
  refine ⟨by rw [draft]; exact record, w.beginMeasurement_begun .refLeft, congrArg Draft.qL writes.draft,
    congrArg Draft.qR writes.draft, congrArg Draft.refFailL writes.draft, congrArg Draft.refFailR writes.draft,
    (congrArg Draft.chL writes.draft).trans results.chL, (congrArg Draft.chR writes.draft).trans results.chR,
    (congrArg Draft.chRef writes.draft).trans results.chRef, writes.intake.trans results.intake,
    writes.hitch.trans results.hitch, fun idle => ?_⟩
  have none : v.recorded.mgmt.capture = none := (congrArg Management.capture results.mgmt).trans idle
  rw [writes.idle none]
  exact ⟨results.tables, results.mail, results.mgmt⟩

section

variable {s v : State} {x : Capture} {l r : Option Nat}

/-! ### Items 1 to 4 of R187 -/

/-- The result that a side of a zero capture takes. -/
def sideTaken (selected : Bool) (count : Nat) (q : Option Nat) : Option Nat :=
  if selected = true ∧ count < 8 then q else none

theorem gather_eq (selected : Bool) (sum count : Nat) (q : Option Nat) : gather selected sum count q =
    (sum + (sideTaken selected count q).getD 0, count + if (sideTaken selected count q).isSome then 1 else 0) := by
  cases q with
  | none => simp only [gather, sideTaken, ite_self, Option.getD_none, Option.isSome_none, Bool.false_eq_true, if_false, Nat.add_zero]
  | some q =>
    simp only [gather, sideTaken]
    split <;> rfl

/-- The capture after one more cycle. -/
theorem Capture.after_eq (x : Capture) (l r : Option Nat) : x.after l r = ⟨x.selL, x.selR,
    x.sumL + (sideTaken x.selL x.countL l).getD 0, x.sumR + (sideTaken x.selR x.countR r).getD 0,
    x.countL + (if (sideTaken x.selL x.countL l).isSome then 1 else 0),
    x.countR + (if (sideTaken x.selR x.countR r).isSome then 1 else 0), x.cycles + 1⟩ := by
  simp only [Capture.after, gather_eq]

theorem Capture.full_iff : x.full = true ↔ (x.selL = true → x.countL = 8) ∧ (x.selR = true → x.countR = 8) := by
  simp only [Capture.full, Bool.and_eq_true, Bool.or_eq_true, Bool.not_eq_true', beq_iff_eq, ← Bool.not_eq_true,
    ← Decidable.imp_iff_not_or]

theorem zeroOf_eq (sum : Nat) : zeroOf sum = max 1 (min 65534 (sum / 8)) := by
  simp only [zeroOf, clamp]
  omega

theorem halfOf_lt (w : TWord) (k : Nat) : halfOf w k < 65536 := Nat.mod_lt _ (by decide)

/-- The halves of a word made of three. -/
theorem halfOf_wordOfHalves {a b c : Nat} (ha : a < 65536) (hb : b < 65536) (hc : c < 65536) :
    halfOf (wordOfHalves a b c) 2 = b ∧ halfOf (wordOfHalves a b c) 4 = c := by
  simp only [halfOf, fieldOf, wordOfHalves, BitVec.toNat_ofNat]
  omega

/-- The Q0 of a side after a capture: that of its sum when it was selected. -/
def sideZero (selected : Bool) (sum q0 : Nat) : Nat := if selected then max 1 (min 65534 (sum / 8)) else q0

theorem sideZero_lt (selected : Bool) (sum : Nat) {q0 : Nat} (h : q0 < 65536) : sideZero selected sum q0 < 65536 := by
  rw [sideZero]
  split <;> omega

/-- A capture that completes writes the Q0 of its sides and answers with both. -/
theorem State.captureDone_eq (s : State) (x : Capture) :
    let w := wordAt s.tables.hitch.loaded 0
    let q0L := sideZero x.selL x.sumL (halfOf w 2)
    let q0R := sideZero x.selR x.sumR (halfOf w 4)
    s.captureDone x = ({ s with
      mgmt := { s.mgmt with capture := none }
      tables := { s.tables with hitch :=
        ⟨.uncommitted, s.tables.hitch.loaded.set 0 (wordOfHalves (halfOf w 0) q0L q0R)⟩ } } : State).reply 0x30 .done
        (bytes2 q0L ++ bytes2 q0R) := by
  intro w q0L q0R
  have word : x.word w = wordOfHalves (halfOf w 0) q0L q0R := by
    simp only [Capture.word, zeroOf_eq]
    rfl
  obtain ⟨left, right⟩ := halfOf_wordOfHalves (halfOf_lt w 0) (sideZero_lt x.selL x.sumL (halfOf_lt w 2))
    (sideZero_lt x.selR x.sumR (halfOf_lt w 4))
  simp only [State.captureDone, State.loadTable_hitch, show wordAt s.tables.hitch.loaded 0 = w from rfl, word]
  rw [show halfOf (wordOfHalves (halfOf w 0) q0L q0R) 2 = q0L from left,
    show halfOf (wordOfHalves (halfOf w 0) q0L q0R) 4 = q0R from right]
  rfl

theorem State.captureCycle_some (capture : s.mgmt.capture = some x) (l r : Option Nat) : s.captureCycle l r =
    if (x.after l r).full then s.captureDone (x.after l r)
    else if (x.after l r).cycles = 24 then
      ({ s with mgmt := { s.mgmt with capture := none } } : State).reply 0x30 .captureInvalid []
    else { s with mgmt := { s.mgmt with capture := some (x.after l r) } } := by
  simp only [State.captureCycle, capture]

end

/-- Settles O33: the results of the cycle, at the state in which the capture takes them. -/
theorem zeroCaptureAveragesEightResults : Obligations.ZeroCaptureAveragesEightResults := by
  intro c s d x reset ends capture taken l r sumL sumR countL countR full w q0L q0R
  obtain ⟨v, ended, results⟩ := exec_cycleEnds reset ends
  refine ⟨_, ended, ?_⟩
  have here : v.recorded.mgmt.capture = some x := (congrArg Management.capture results.mgmt).trans capture
  have tables : v.recorded.tables = s.tables := results.tables
  have mgmt : v.recorded.mgmt = s.mgmt := results.mgmt
  have mail : v.recorded.mail = s.mail := results.mail
  have after : x.after (d.included .l) (d.included .r) = ⟨x.selL, x.selR, sumL, sumR, countL, countR, x.cycles + 1⟩ :=
    x.after_eq _ _
  have complete : (x.after (d.included .l) (d.included .r)).full = true ↔ full := by
    rw [after]
    exact Capture.full_iff
  rw [State.cycleEnd_eq, results.sideL, results.sideR, State.captureCycle_some here]
  generalize v.recorded = u at tables mgmt mail ⊢
  refine ⟨fun done => ?_, fun unfinished last => ?_, fun unfinished more => ?_⟩
  · rw [if_pos (complete.2 done), State.captureDone_eq, after, tables, mgmt]
    exact ⟨rfl, rfl, rfl⟩
  · rw [if_neg (mt complete.1 unfinished), after, if_pos last, ← mgmt, ← tables]
    exact ⟨rfl, rfl, rfl⟩
  · rw [if_neg (mt complete.1 unfinished), after, if_neg more, ← mgmt, ← tables, ← mail]
    exact ⟨rfl, rfl, rfl⟩

end Sys2Proof.Machine

/-! ### What commands leave alone: the tables, the Operator Request Record and the slots -/

namespace Sys2Proof.Machine

section

variable {s t u : State} {l : Link} {c : LinkCtl} {time : Time} {code : Byte} {r : ReqFrame} {data : List Byte} {i : Fin 16}

/-- The tables and the Frame Intake stay. -/
structure Spares (s t : State) : Prop where
  tables : t.tables = s.tables
  intake : t.intake = s.intake

theorem Spares.refl (s : State) : Spares s s := ⟨rfl, rfl⟩

theorem Spares.trans (h : Spares s t) (k : Spares t u) : Spares s u := ⟨k.tables.trans h.tables, k.intake.trans h.intake⟩

theorem Reacts.spares (h : Reacts s t) : Spares s t := ⟨h.tables, h.intake⟩

theorem Acts.spares (h : Acts s t) : Spares s t := h.reacts.spares

/-- A block acts once its timer has stopped. -/
theorem Spares.act (h : Acts t u) (tables : t.tables = s.tables) (intake : t.intake = s.intake) : Spares s u :=
  .trans ⟨tables, intake⟩ h.spares

theorem Spares.settles (h : Spares s t) : Spares s t.settled := h.trans t.settled_reacts.spares

theorem Spares.ite {p : Prop} [Decidable p] (h : p → Spares s t) : Spares s (if p then t else s) := by
  split
  · exact h ‹_›
  · exact .refl s

theorem Spares.unlessReset {f : State → State} (h : s.resetting = none → Spares s (f s)) : Spares s (s.unlessReset f) := by
  by_cases reset : s.resetting = none
  · rw [State.unlessReset_on reset]
    exact h reset
  · rw [State.unlessReset_off reset]
    exact .refl s

/-- A command that a reset in progress shuts out. -/
theorem spares_unlessReset {f : State → State} (h : s.resetting = none → Spares s (f s)) :
    ∃ t, (Host.Outcome.next (s.unlessReset f) : Host.Outcome State Fault Refusal) = .next t ∧ Spares s t :=
  ⟨_, rfl, .unlessReset h⟩

/-! ### Links -/

theorem State.changeLink_spares (s : State) (l : Link) (c : LinkCtl) : Spares s (s.changeLink l c) := by
  obtain ⟨-, -, -, -, intake, tables, -⟩ := s.changeLink_fields l c
  exact ⟨tables, intake⟩

theorem State.setLink_spares (s : State) (l : Link) (c : LinkCtl) : Spares s (s.setLink l c) := by
  cases l <;> exact ⟨rfl, rfl⟩

theorem State.makeOffer_spares (s : State) (l : Link) : Spares s (s.makeOffer l) := by
  rw [State.makeOffer]
  refine .ite fun _ => ?_
  split
  · exact .refl s
  · exact s.setLink_spares l _

theorem State.expire_spares (s : State) (x : Timer) : Spares s (s.expire x) := ⟨rfl, rfl⟩

theorem State.silence_spares (s : State) (x : Timer) (l : Link) (c : LinkCtl) (k : FaultKind) :
    Spares s (((s.expire x).changeLink l c).raiseLink k l) :=
  ((s.expire_spares x).trans (State.changeLink_spares _ l c)).trans ⟨rfl, rfl⟩

theorem State.linkSuspect_spares (s : State) (l : Link) : Spares s (s.linkSuspect l) := by
  rw [State.linkSuspect]
  exact .ite fun _ => s.silence_spares _ l _ _

theorem State.linkFailed_spares (s : State) (l : Link) : Spares s (s.linkFailed l) := by
  rw [State.linkFailed]
  refine (s.linkSuspect_spares l).trans ?_
  exact .ite fun _ => State.silence_spares _ _ l _ _

theorem State.dropExpired_spares (s : State) (l : Link) : Spares s (s.dropExpired l) := by
  rw [State.dropExpired]
  refine .ite fun _ => ?_
  cases l <;> exact ⟨rfl, rfl⟩

/-- A counted frame. -/
theorem State.heardOn_spares (s : State) (time : Time) (l : Link) : Spares s (s.heardOn time l) :=
  ⟨(s.heardOn_fields time l).tables, (s.heardOn_fields time l).intake⟩

/-! ### Requests -/

theorem State.reply_spares (s : State) (n : Nat) (res : Result) (bytes : List Byte) : Spares s (s.reply n res bytes) :=
  ⟨rfl, rfl⟩

theorem State.requestSetup_spares (s : State) : Spares s s.requestSetup := by
  rw [State.requestSetup]
  refine Spares.trans (.ite fun _ => (State.setOp_reacts s _).spares) (State.reply_spares _ _ _ _)

theorem State.requestRun_spares (s : State) : Spares s s.requestRun := by
  rw [State.requestRun]
  refine Spares.trans (.ite fun _ => (State.setOp_reacts s _).spares) (State.reply_spares _ _ _ _)

theorem State.selectCursor_spares (s : State) (n word : Nat) : Spares s (s.selectCursor n word) := by
  rw [State.selectCursor]
  split
  · exact ⟨rfl, rfl⟩
  · split <;> exact ⟨rfl, rfl⟩

theorem State.readWord_spares (s : State) : Spares s s.readWord := by
  rw [State.readWord]
  split
  · exact ⟨rfl, rfl⟩
  · split <;> exact ⟨rfl, rfl⟩

theorem State.requestAck_spares (s : State) (sel kind index : Nat) : Spares s (s.requestAck sel kind index) := by
  rw [State.requestAck]
  split <;> exact ⟨rfl, rfl⟩

theorem State.requestCapture_spares (s : State) (sel : Nat) : Spares s (s.requestCapture sel) := by
  rw [State.requestCapture]
  split
  · exact ⟨rfl, rfl⟩
  · split <;> exact ⟨rfl, rfl⟩

theorem State.requestRestart_spares (s : State) : Spares s s.requestRestart := by
  rw [State.requestRestart]
  split <;> exact ⟨rfl, rfl⟩

/-- A request that is neither WRITE_WORDS nor COMMIT_TABLE. -/
theorem State.handleRequest_spares (s : State) (notWrite : dataAt data 0 ≠ 0x11) (notCommit : dataAt data 0 ≠ 0x13) :
    Spares s (s.handleRequest data) := by
  unfold State.handleRequest
  simp only
  split
  · exact ⟨rfl, rfl⟩
  · exact s.requestSetup_spares
  · exact s.requestRun_spares
  · exact s.selectCursor_spares _ _
  · exact absurd ‹_› notWrite
  · exact s.readWord_spares
  · exact absurd ‹_› notCommit
  · exact s.requestAck_spares _ _ _
  · exact s.requestCapture_spares _
  · exact s.requestRestart_spares
  · exact .refl s

/-- The cases of R181 before the rule of the request. -/
theorem State.takeRequest_keeps {P : State → Prop} (stays : P s) (replies : ∀ n res, P (s.reply n res []))
    (handles : data ≠ [] → P (s.handleRequest data)) : P (s.takeRequest data) := by
  rw [State.takeRequest]
  split
  · exact replies _ _
  · split
    · exact replies _ _
    · split
      · exact replies _ _
      · split
        · exact stays
        · exact handles ‹_›

theorem State.receiveRequest_spares (s : State) (notWrite : code.toNat ≠ 0x11) (notCommit : code.toNat ≠ 0x13) :
    Spares s (s.receiveRequest time code r) := by
  refine .unlessReset fun _ => .ite fun _ => ?_
  rw [State.takeFrame_management]
  refine ((s.heardOn_spares time .t).trans ?_).settles
  have heard : (s.atTime time).countFrame .t = s.heardOn time .t := rfl
  rw [heard]
  generalize s.heardOn time .t = u
  refine State.takeRequest_keeps (.refl u) (fun _ _ => ⟨rfl, rfl⟩) fun some => ?_
  have dlc : 1 ≤ r.dlcCode.val := by
    rw [ne_eq, ← List.length_eq_zero_iff, rxData_length] at some
    omega
  have first := rxData_code (d := r.dlcCode) dlc code r.rest
  exact u.handleRequest_spares (by rw [first]; exact notWrite) (by rw [first]; exact notCommit)

/-! ### Timers and steps -/

theorem State.facFilled_spares (s : State) : Spares s s.facFilled := by
  obtain ⟨-, tables, -, -, intake, -⟩ := s.setFac_eq .released
  rw [State.facFilled]
  simp only
  generalize s.setFac .released = u at tables intake
  refine Spares.trans ⟨tables, intake⟩ ?_
  have filled : Spares u { u with
      fac := { u.fac with fillKPa := 0, holdKPa := 0, pulseTimer := none, fillTimer := none }
      arbiter := u.arbiter.giveBack .fac } := ⟨rfl, rfl⟩
  exact filled.trans (State.decideFill_acts (State.facCheckEval_acts (.refl _))).spares

theorem State.supervisorError_spares (s : State) : Spares s s.supervisorError := by
  rw [State.supervisorError_eq]
  simp only
  split
  · exact ⟨rfl, rfl⟩
  · split <;> exact ⟨rfl, rfl⟩

theorem State.shuttleDropped_spares (s : State) : Spares s s.shuttleDropped := by
  cases h : s.gear.shuttle with
  | none => rw [State.shuttleDropped_none h]; exact .refl s
  | some x => rw [State.shuttleDropped_some h]; exact ⟨rfl, rfl⟩

theorem State.deferralPassed_spares (s : State) : Spares s s.deferralPassed := by
  rw [State.deferralPassed]
  split
  · exact ⟨rfl, rfl⟩
  · exact .refl s
  · exact .refl s

theorem State.ageEntry_spares (s : State) (k : FaultKind) (i : Nat) : Spares s (s.ageEntry k i) := by
  rw [State.ageEntry]
  split
  · exact .refl s
  · exact ⟨rfl, rfl⟩

theorem State.firstEdgeSeen_spares (s : State) : Spares s s.firstEdgeSeen := by
  rw [State.firstEdgeSeen]
  split
  · exact .refl s
  · exact ⟨rfl, rfl⟩

theorem State.controlStep_spares (s : State) : Spares s s.controlStep := by
  have written : Spares s s.controlWritten := ⟨rfl, rfl⟩
  rw [State.controlStep_eq]
  exact written.trans ((State.afterLaw_moves _ _).acts (.refl _)).spares

theorem State.brakeStepTaken_spares (s : State) : Spares s s.brakeStepTaken := by
  have written : Spares s s.brakeStepWritten := ⟨rfl, rfl⟩
  rw [State.brakeStepTaken_eq]
  exact written.trans (State.lineCheckEval_acts (.refl _)).spares

/-- A command that writes neither a table nor the Frame Intake. -/
theorem exec_spares (c : Instr) (s : State) (tables : c.writesTables = false) (slots : c.writesSlots = false)
    (codes : ∀ time code r, c.request = some (time, code, r) → code.toNat ≠ 0x11 ∧ code.toNat ≠ 0x13) :
    ∃ t, exec c s = .next t ∧ Spares s t := by
  have requested (time : Time) (code : Byte) (r : ReqFrame) (request : c.request = some (time, code, r)) :
      ∃ t, exec c s = .next t ∧ Spares s t :=
    ⟨_, exec_request request s, s.receiveRequest_spares (codes time code r request).1 (codes time code r request).2⟩
  cases c with
  | powerOnReset | pinReset | resetEnd | restartBegin | signalFrame | operatorCommand | unmatchedFrame | writeWords
  | commitTable | txSuccess | slotTimeout | slotHoldExpiry => exact absurd slots Bool.noConfusion
  | clutchStep | fillWaitTimeout | syncTimeout | refGateEnd | refOverrange | sensorMeasurementEnd | sensorStall =>
    exact absurd tables Bool.noConfusion
  | statusQuery | enterSetup | leaveSetup | selectTable | readWords | faultAck | captureZero | restart =>
    exact requested _ _ _ rfl
  | otherFrameReceived l => exact spares_unlessReset fun _ => .ite fun _ => (s.changeLink_spares l _).settles
  | frameRxError l => exact spares_unlessReset fun _ => .ite fun _ => (s.changeLink_spares l _).settles
  | transmitOffer l => exact spares_unlessReset fun _ => s.makeOffer_spares l
  | txError l =>
    refine spares_unlessReset fun _ => ?_
    cases (s.link l).offer with
    | none => exact .refl s
    | some o => exact (s.changeLink_spares l _).settles
  | arbitrationLost l => exact spares_unlessReset fun _ => s.setLink_spares l _
  | busOffRecovery l => exact spares_unlessReset fun _ => (Spares.ite fun _ => s.changeLink_spares l _).settles
  | linkSuspectTimeout l => exact spares_unlessReset fun _ => (s.linkSuspect_spares l).settles
  | linkFailedTimeout l => exact spares_unlessReset fun _ => (s.linkFailed_spares l).settles
  | passageDropTimeout l => exact spares_unlessReset fun _ => s.dropExpired_spares l
  | standstillTimerExpiry =>
    refine spares_unlessReset fun _ => .ite fun _ => Spares.settles ?_
    rw [State.standstillReached]
    exact .act (State.motionChanged_acts (.refl _) _ false) rfl rfl
  | shuttlePendingExpiry => exact spares_unlessReset fun _ => s.shuttleDropped_spares
  | holdOffExpiry => exact spares_unlessReset fun _ => .ite fun _ => ⟨rfl, rfl⟩
  | deferralTimerExpiry => exact spares_unlessReset fun _ => s.deferralPassed_spares
  | facPulseEnd => exact spares_unlessReset fun _ => .ite fun _ => ⟨rfl, rfl⟩
  | facFillEnd =>
    exact spares_unlessReset fun _ => .ite fun _ => ((s.expire_spares _).trans (State.facFilled_spares _)).settles
  | dwellExpiry =>
    refine spares_unlessReset fun _ => .ite fun _ => Spares.settles ?_
    rw [State.dwellPassed]
    exact .act (State.facEvaluate_acts (.refl _)) rfl rfl
  | brakeHoldExpiry =>
    refine spares_unlessReset fun _ => .ite fun _ => Spares.settles ?_
    rw [State.brakeHoldPassed]
    exact .act (State.facEvaluate_acts (.refl _)) rfl rfl
  | releaseCheckExpiry => exact spares_unlessReset fun _ => .ite fun _ => ⟨rfl, rfl⟩
  | firstEdge => exact spares_unlessReset fun _ => s.firstEdgeSeen_spares
  | hitchControlStep => exact spares_unlessReset fun _ => s.controlStep_spares
  | brakeStep => exact spares_unlessReset fun _ => s.brakeStepTaken_spares
  | stretchTailExpiry =>
    refine spares_unlessReset fun _ => .ite fun _ => ?_
    rw [State.tailEnded]
    exact .act (State.trailerEvaluate_acts (.refl _)) rfl rfl
  | lineCheckExpiry => exact spares_unlessReset fun _ => .ite fun _ => ⟨rfl, rfl⟩
  | emissionTimer => exact spares_unlessReset fun _ => ⟨rfl, rfl⟩
  | busOffTimerExpiry => exact spares_unlessReset fun _ => .ite fun _ => Spares.settles ⟨rfl, rfl⟩
  | runTimerExpiry => exact spares_unlessReset fun _ => .ite fun _ => ⟨rfl, rfl⟩
  | lateTimerExpiry =>
    refine spares_unlessReset fun _ => .ite fun _ => Spares.settles ?_
    rw [State.lateExpired]
    refine Spares.trans ?_ (State.supervisorError_spares _)
    exact ⟨rfl, rfl⟩
  | faultAgeTick k i => exact spares_unlessReset fun _ => s.ageEntry_spares k i.val

end

end Sys2Proof.Machine

/-! ### The writers: what a matched frame, a reset, a draft measurement and a clutch step still leave alone -/

namespace Sys2Proof.Machine

section

variable {s t u : State} {l : Link} {time : Time} {code : Byte} {r : ReqFrame} {data : List Byte} {f : Frame} {early : Bool}

/-! ### Slots -/

theorem Reacts.intake_of (h : Reacts t u) (start : t.intake = s.intake) : u.intake = s.intake := h.intake.trans start

/-- The tables and the Operator Request Record stay, where the slots may change. -/
structure SparesRecord (s t : State) : Prop where
  tables : t.tables = s.tables
  record : t.intake.record = s.intake.record

theorem SparesRecord.refl (s : State) : SparesRecord s s := ⟨rfl, rfl⟩

theorem SparesRecord.trans (h : SparesRecord s t) (k : SparesRecord t u) : SparesRecord s u :=
  ⟨k.tables.trans h.tables, k.record.trans h.record⟩

theorem Spares.record (h : Spares s t) : SparesRecord s t := ⟨h.tables, congrArg Intake.record h.intake⟩

theorem SparesRecord.settles (h : SparesRecord s t) : SparesRecord s t.settled :=
  h.trans t.settled_reacts.spares.record

/-- The announcement of slots that have been written. -/
theorem SparesRecord.announces (h : SparesRecord s t) (n : SlotNews) : SparesRecord s (t.announceSlots n) :=
  h.trans (State.announceSlots_acts (.refl t) n).spares.record

theorem State.loseSlot_spares (s : State) (i : Fin 16) : SparesRecord s (s.loseSlot i) := ⟨rfl, rfl⟩

theorem State.slotTimedOut_spares (s : State) (i : Fin 16) : SparesRecord s (s.slotTimedOut i) := by
  rw [State.slotTimedOut]
  refine (s.expire_spares (s.slot i).timer).record.trans (SparesRecord.announces ?_ _)
  generalize s.expire (s.slot i).timer = u
  split
  · exact ⟨rfl, rfl⟩
  · exact u.loseSlot_spares i

theorem State.slotHoldPassed_spares (s : State) (i : Fin 16) : SparesRecord s (s.slotHoldPassed i) :=
  (s.expire_spares (s.slot i).timer).record.trans (SparesRecord.announces (State.loseSlot_spares _ i) _)

/-! ### Resets -/

theorem State.beginReset_spares (s : State) (k : ResetKind) : SparesRecord s (s.beginReset k) :=
  ⟨(s.beginReset_fields k).1, by simp only [State.beginReset, State.quiet]⟩

theorem State.restartBegins_spares (s : State) : SparesRecord s s.restartBegins := by
  rw [State.restartBegins]
  split
  · exact (s.expire_spares _).record.trans (State.beginReset_spares _ _)
  · exact .refl s

/-! ### A frame transmitted -/

theorem State.sent_spares (s : State) (l : Link) (o : Offer) : Spares s (s.sent l o) := by
  rw [State.sent]
  split
  · exact ⟨rfl, rfl⟩
  · cases l <;> exact ⟨rfl, rfl⟩

theorem State.transmitted_spares (s : State) (l : Link) : SparesRecord s (s.transmitted l) := by
  cases offer : (s.link l).offer with
  | none =>
    simp only [State.transmitted, offer]
    exact .refl s
  | some o =>
    have sent : SparesRecord s (s.offerSent l o).settled :=
      ((s.changeLink_spares l _).trans (State.sent_spares _ l o)).settles.record
    rw [State.transmitted_eq offer]
    split
    · exact sent.trans (State.beginReset_spares _ _)
    · exact sent

/-! ### Requests -/

theorem State.loadTable_record (s : State) (id : TableId) (ws : List TWord) :
    (s.loadTable id ws).intake.record = s.intake.record := by
  obtain ⟨slots, map, faults, acts⟩ := s.loadTable_acts id ws
  exact (congrArg Intake.record acts.reacts.intake).trans rfl

theorem State.writeWord_record (s : State) (check : Nat) : (s.writeWord check data).intake.record = s.intake.record := by
  rw [State.writeWord]
  split
  · rfl
  · split
    · rfl
    · split
      · rfl
      · split
        · rfl
        · exact s.loadTable_record _ _

theorem State.commitTable_record (s : State) (id : TableId) : (s.commitTable id).intake.record = s.intake.record := by
  rw [State.commitTable]
  obtain ⟨slots, map, faults, acts⟩ := (s.setTable id { s.table id with state := .committed }).tableChanged_acts id (s.inUse id)
  exact (congrArg Intake.record acts.reacts.intake).trans rfl

theorem State.requestCommit_record (s : State) (id crc : Nat) :
    (s.requestCommit id crc).intake.record = s.intake.record := by
  rw [State.requestCommit]
  split
  · rfl
  · split
    · rfl
    · simp only
      split
      · rfl
      · split
        · rfl
        · exact s.commitTable_record _

theorem State.handleRequest_record (s : State) : (s.handleRequest data).intake.record = s.intake.record := by
  by_cases write : dataAt data 0 = 0x11
  · simp only [State.handleRequest, write]
    exact s.writeWord_record _
  · by_cases commit : dataAt data 0 = 0x13
    · simp only [State.handleRequest, commit]
      exact s.requestCommit_record _ _
    · exact congrArg Intake.record (s.handleRequest_spares write commit).intake

/-- Every management request leaves the Operator Request Record. -/
theorem State.receiveRequest_record (s : State) :
    (s.receiveRequest time code r).intake.record = s.intake.record := by
  rw [State.receiveRequest, State.receive, State.unlessReset]
  split
  · rfl
  · split
    · rw [State.takeFrame_management]
      refine (congrArg Intake.record (State.settled_reacts _).intake).trans ?_
      have heard : ((s.atTime time).countFrame .t).intake = s.intake := (s.heardOn_spares time .t).intake
      rw [← heard]
      generalize (s.atTime time).countFrame .t = u
      exact u.takeRequest_keeps (P := fun t => t.intake.record = u.intake.record) rfl (fun _ _ => rfl)
        fun _ => u.handleRequest_record
    · rfl

/-! ### Matched frames -/

theorem State.forward_tables (s : State) (l : Link) (e : MapEntry) (f : Frame) : (s.forward l e f).tables = s.tables := by
  rw [State.forward_eq]
  exact (s.setLink_spares _ _).tables

theorem State.applyUpdates_tables (us : List (Fin 16 × Int)) (s : State) : (s.applyUpdates us).tables = s.tables := by
  obtain ⟨slots, faults, -, acts⟩ := s.applyUpdates_acts us
  exact acts.reacts.tables

theorem State.operatorFrame_tables (s : State) : (s.operatorFrame data).tables = s.tables := by
  rw [State.operatorFrame]
  split
  · exact (State.supervisorError_spares s).tables
  · split
    · exact (State.supervisorError_spares s).tables
    · simp only [State.acceptCommand, State.recoveryTest]
      split <;> rfl

/-- A frame that is no management request. -/
theorem State.takeFrame_tables (s : State) (notRequest : ¬(l = .t ∧ f.ident = 0x7B0)) :
    (s.takeFrame l early f).tables = s.tables := by
  rw [State.takeFrame]
  split
  case h_1 management =>
    rw [classify, if_neg notRequest] at management
    repeat' split at management
    all_goals cases management
  case h_2 => rfl
  case h_3 e _ =>
    rw [State.applyUpdates_tables, State.forward_tables]
  case h_4 e _ =>
    rw [State.operatorFrame_tables, State.forward_tables]

theorem State.receive_tables (s : State) (notRequest : ¬(l = .t ∧ f.ident = 0x7B0)) :
    (s.receive time l early f).tables = s.tables := by
  rw [State.receive, State.unlessReset]
  split
  · rfl
  · split
    · refine (State.settled_reacts _).tables.trans ((State.takeFrame_tables _ notRequest).trans ?_)
      exact (s.heardOn_spares time l).tables
    · rfl

/-! ### Draft measurements -/

theorem State.beginMeasurement_intake (s : State) (p : CapturePos) : (s.beginMeasurement p).intake = s.intake := rfl

theorem State.channelResult_intake (s : State) (c : Channel) (valid : Bool) :
    (s.channelResult c valid).intake = s.intake := by
  rw [State.channelResult_after]

theorem State.cycleEnd_intake (s : State) : s.cycleEnd.intake = s.intake := by
  rw [State.cycleEnd_eq, State.beginMeasurement_intake, (State.captureCycle_writes _ _ _).intake]
  rfl

theorem State.refEnded_intake (s : State) (e : Option Nat) : (s.refEnded e).intake = s.intake := by
  have result := (s.withDraft fun d => { d with eRef := e }).channelResult_intake .ref e.isSome
  simp only [State.refEnded]
  generalize (s.withDraft fun d => { d with eRef := e }).channelResult .ref e.isSome = u at result ⊢
  split
  · cases e <;> exact result
  · cases e with
    | none => exact (State.cycleEnd_intake _).trans result
    | some x => exact result
  · exact result
  · exact result

theorem State.sensorEnded_intake (s : State) (q : Option Nat) : (s.sensorEnded q).intake = s.intake := by
  rw [State.sensorEnded]
  split
  · exact State.channelResult_intake _ _ _
  · exact (State.cycleEnd_intake _).trans (State.channelResult_intake _ _ _)
  · rfl
  · rfl

theorem State.measured_intake (s : State) (x : Nat) (edges : List Nat) : (s.measured x edges).intake = s.intake := by
  rw [State.measured_eq]

theorem State.refMeasured_intake (s : State) (edges : List Nat) : (s.refMeasured edges).intake = s.intake := by
  rw [State.refMeasured]
  split
  · exact (State.refEnded_intake _ _).trans (s.measured_intake _ _)
  · exact (State.refEnded_intake _ _).trans (s.measured_intake _ _)

theorem State.sensorMeasured_intake (s : State) (edges : List Nat) : (s.sensorMeasured edges).intake = s.intake := by
  rw [State.sensorMeasured]
  split
  · rfl
  · exact (State.sensorEnded_intake _ _).trans (s.measured_intake _ _)
  · exact (State.sensorEnded_intake _ _).trans (s.measured_intake _ _)

/-! ### The clutch step -/

theorem State.adapt_intake (s : State) (o : Order) (res : OrderResult) : (s.adapt o res).intake = s.intake := by
  rw [State.adapt]
  split <;> rfl

theorem State.endAtStep_intake (s : State) (o : Order) (res : OrderResult) : (s.endAtStep o res).intake = s.intake :=
  (State.orderEnd_acts (State.syncGone_acts (.refl (s.adapt o res)) o res) _ _ _).reacts.intake_of (s.adapt_intake o res)

theorem State.writeClutchFrames_intake (s : State) (phase : Nat) : (s.writeClutchFrames phase).intake = s.intake := by
  have writes (u : State) (id : MailboxId) (data : List Byte) : (u.writeMail id data).intake = u.intake := by
    rw [State.writeMail_fields]
  rw [State.writeClutchFrames]
  exact (State.setNeut_acts (.refl _)).reacts.intake_of ((writes _ _ _).trans (writes _ _ _))

theorem State.runStep_intake (s : State) (o : Order) : (s.runStep o).intake = s.intake := by
  have executed : Acts s (((s.withOrder (s.stepOrder o).1).phaseEnded (s.stepOrder o).1 (s.stepOrder o).2).stepCommands) :=
    (State.phaseEnded_acts (State.withOrder_acts (.refl s) _) _ _).withShift _
  rw [State.runStep]
  simp only
  generalize ((s.withOrder (s.stepOrder o).1).phaseEnded (s.stepOrder o).1 (s.stepOrder o).2).stepCommands = u at executed ⊢
  rw [State.writeClutchFrames_intake]
  cases (s.stepOrder o).1.endsWith (s.stepOrder o).2 with
  | some res => exact (u.endAtStep_intake _ res).trans executed.reacts.intake
  | none => exact (State.orderGoesOn_acts executed _ _).reacts.intake

/-- The state in which a clutch step runs: its timer is set to the next period (R59). -/
def State.stepTimed (s : State) : State :=
  { s.expire s.shift.timer with shift := { s.shift with
    timer := (s.expire s.shift.timer).nextPeriod s.shift.timer Config.clutchStepMs } }

theorem State.clutchStep_idle (h : s.shift.order = none) : s.clutchStep = s.stepTimed.stepCommands.writeClutchFrames 0 := by
  have idle : s.stepTimed.shift.order = none := h
  show (match s.stepTimed.shift.order with
    | none => s.stepTimed.stepCommands.writeClutchFrames 0
    | some o => s.stepTimed.runStep o) = _
  rw [idle]

theorem State.clutchStep_order {o : Order} (h : s.shift.order = some o) : s.clutchStep = s.stepTimed.runStep o := by
  have inFlight : s.stepTimed.shift.order = some o := h
  show (match s.stepTimed.shift.order with
    | none => s.stepTimed.stepCommands.writeClutchFrames 0
    | some o => s.stepTimed.runStep o) = _
  rw [inFlight]

theorem State.clutchStep_intake (s : State) : s.clutchStep.intake = s.intake := by
  cases order : s.shift.order with
  | none => rw [State.clutchStep_idle order]; rfl
  | some o => rw [State.clutchStep_order order]; exact s.stepTimed.runStep_intake o

/-! ### Each command -/

/-- A command that a reset in progress shuts out, and what it keeps. -/
theorem next_keeps {α : Type} {g : State → α} {f : State → State} (h : g (f s) = g s) :
    ∃ t, (Host.Outcome.next (s.unlessReset f) : Host.Outcome State Fault Refusal) = .next t ∧ g t = g s := by
  refine ⟨_, rfl, ?_⟩
  rw [State.unlessReset]
  split
  · rfl
  · exact h

theorem next_keeps_ite {α : Type} {g : State → α} {f : State → State} {p : State → Prop} [DecidablePred p]
    (h : g (f s) = g s) : ∃ t, (Host.Outcome.next (s.unlessReset fun s => if p s then f s else s) :
      Host.Outcome State Fault Refusal) = .next t ∧ g t = g s := by
  refine next_keeps ?_
  split
  · exact h
  · rfl

theorem State.settledStep_intake (s : State) : s.clutchStep.settled.intake = s.intake :=
  (State.settled_reacts _).intake_of s.clutchStep_intake

/-- A command that writes no slot leaves the Frame Intake as it is. -/
theorem exec_keepsIntake (c : Instr) (s : State) (slots : c.writesSlots = false)
    (codes : ∀ time code r, c.request = some (time, code, r) → code.toNat ≠ 0x11 ∧ code.toNat ≠ 0x13) :
    ∃ t, exec c s = .next t ∧ t.intake = s.intake := by
  cases tables : c.writesTables with
  | false =>
    obtain ⟨t, next, spares⟩ := exec_spares c s tables slots codes
    exact ⟨t, next, spares.intake⟩
  | true =>
    cases c with
    | resetEnd | writeWords | commitTable => exact absurd slots Bool.noConfusion
    | clutchStep => exact next_keeps s.settledStep_intake
    | fillWaitTimeout | syncTimeout => exact next_keeps_ite s.settledStep_intake
    | refGateEnd es => exact next_keeps_ite (s.refMeasured_intake es)
    | refOverrange => exact next_keeps_ite (s.refMeasured_intake _)
    | sensorMeasurementEnd es => exact next_keeps_ite (s.sensorMeasured_intake es)
    | sensorStall =>
      refine next_keeps ?_
      rw [State.sensorStalled]
      split
      · rfl
      · exact s.sensorMeasured_intake []
    | _ => exact absurd tables Bool.noConfusion

/-- A command that writes slots, but no table, and is no request. -/
theorem exec_sparesRecord (c : Instr) (s : State) (tables : c.writesTables = false) (slots : c.writesSlots = true)
    (unmatched : c.matched = false) : ∃ t, exec c s = .next t ∧ SparesRecord s t := by
  have outside {f : State → State} (h : SparesRecord s (f s)) : ∃ t, (Host.Outcome.next (s.unlessReset f) :
      Host.Outcome State Fault Refusal) = .next t ∧ SparesRecord s t := by
    refine ⟨_, rfl, ?_⟩
    rw [State.unlessReset]
    split
    · exact .refl s
    · exact h
  cases c with
  | powerOnReset => exact ⟨_, rfl, s.beginReset_spares _⟩
  | pinReset => exact ⟨_, rfl, (s.beginReset_spares .pin).tables, (s.beginReset_spares .pin).record⟩
  | restartBegin => exact outside s.restartBegins_spares
  | txSuccess l => exact outside (s.transmitted_spares l)
  | slotTimeout i =>
    refine outside ?_
    split
    · exact (s.slotTimedOut_spares i).settles
    · exact .refl s
  | slotHoldExpiry i =>
    refine outside ?_
    split
    · exact (s.slotHoldPassed_spares i).settles
    · exact .refl s
  | signalFrame | operatorCommand | unmatchedFrame => exact absurd unmatched Bool.noConfusion
  | resetEnd | writeWords | commitTable => exact absurd tables Bool.noConfusion
  | _ => exact absurd slots Bool.noConfusion

/-- The codes of the well-formed requests that are neither WRITE_WORDS nor COMMIT_TABLE. -/
theorem Instr.wf_codes {c : Instr} (wf : c.wf = true) (kept : c.writesTables = false ∨ c.writesSlots = false) (time : Time) (code : Byte)
    (r : ReqFrame) (request : c.request = some (time, code, r)) : code.toNat ≠ 0x11 ∧ code.toNat ≠ 0x13 := by
  cases c <;> cases request
  case statusQuery =>
    simp only [Instr.wf, statusCodeWf, requestCodes, Bool.and_eq_true, Bool.or_eq_true, beq_iff_eq, Bool.not_eq_true',
      List.contains_eq_mem, decide_eq_false_iff_not, List.mem_cons, List.not_mem_nil, or_false] at wf
    omega
  case writeWords | commitTable => rcases kept with h | h <;> exact absurd h Bool.noConfusion
  all_goals decide

theorem notRequest_iff (l : Link) (f : RxFrame) :
    notRequest l f = true ↔ ¬(l = .t ∧ (rxFrame f).ident = 0x7B0) := by
  simp only [notRequest, rxFrame, Bool.not_eq_true', Bool.and_eq_false_iff, beq_eq_false_iff_ne, Decidable.not_and_iff_or_not]

/-- A data frame that is no request leaves the tables. -/
theorem exec_frame_tables (f : RxFrame) (wf : notRequest l f = true) :
    ∃ t, (Host.Outcome.next (s.receive time l early (rxFrame f)) : Host.Outcome State Fault Refusal) = .next t ∧
      t.tables = s.tables :=
  ⟨_, rfl, s.receive_tables ((notRequest_iff l f).1 wf)⟩

end

/-- Settles O11. -/
theorem tablesChangeByTheirWritersAlone : Obligations.TablesChangeByTheirWritersAlone := by
  intro c s wf tables
  cases slots : c.writesSlots with
  | false =>
    obtain ⟨t, next, spares⟩ := exec_spares c s tables slots (Instr.wf_codes wf (.inl tables))
    exact ⟨t, next, spares.tables⟩
  | true =>
    cases matched : c.matched with
    | false =>
      obtain ⟨t, next, spares⟩ := exec_sparesRecord c s tables slots matched
      exact ⟨t, next, spares.tables⟩
    | true =>
      cases c with
      | signalFrame time l early f | operatorCommand time l early f | unmatchedFrame time l early f =>
        simp only [Instr.wf, Bool.and_eq_true] at wf
        exact exec_frame_tables f wf.2
      | _ => exact absurd matched Bool.noConfusion

/-- Settles O12: a request keeps the record whatever its code, and so do resets, slot timers and transmissions. -/
theorem operatorRecordChangesByMatchedFramesAlone : Obligations.OperatorRecordChangesByMatchedFramesAlone := by
  intro c s notEnd unmatched
  cases request : c.request with
  | some q => exact ⟨_, exec_request request s, s.receiveRequest_record⟩
  | none =>
    have codes : ∀ time code r, c.request = some (time, code, r) → code.toNat ≠ 0x11 ∧ code.toNat ≠ 0x13 := by
      simp [request]
    cases slots : c.writesSlots with
    | false =>
      obtain ⟨t, next, intake⟩ := exec_keepsIntake c s slots codes
      exact ⟨t, next, congrArg Intake.record intake⟩
    | true =>
      have tables : c.writesTables = false := by
        cases c with
        | resetEnd => exact absurd rfl notEnd
        | writeWords | commitTable => cases request
        | clutchStep | fillWaitTimeout | syncTimeout | refGateEnd | refOverrange | sensorMeasurementEnd | sensorStall =>
          cases slots
        | _ => rfl
      obtain ⟨t, next, spares⟩ := exec_sparesRecord c s tables slots unmatched
      exact ⟨t, next, spares.record⟩

/-- Settles O13. -/
theorem slotsChangeByTheirWritersAlone : Obligations.SlotsChangeByTheirWritersAlone := by
  intro c s wf slots
  exact exec_keepsIntake c s slots (Instr.wf_codes wf (.inr slots))

end Sys2Proof.Machine

/-! ### A grant decision (R88, R89) -/

namespace Sys2Proof.Machine

section

variable {s : State} {a : Arbiter} {n : Nat}

/-! ### Slots taken -/

/-- A slot goes from the free ones to the Shift Engine. -/
theorem Arbiter.take_shift_counts (h : 1 ≤ a.count .free) :
    (a.take .shift).count .free + 1 = a.count .free ∧ (a.take .shift).count .shift = a.count .shift + 1 := by
  obtain ⟨x, y, w, f⟩ := a
  revert h
  cases x <;> cases y <;> simp [Arbiter.take, Arbiter.count]

/-- One slot more goes to the front axle. -/
theorem Arbiter.take_fac_counts (h : 1 ≤ a.count .free) : (a.take .fac).count .fac = a.count .fac + 1 := by
  obtain ⟨x, y, w, f⟩ := a
  revert h
  cases x <;> cases y <;> simp [Arbiter.take, Arbiter.count]

theorem takes_shift_counts (ns : List Nat) (h : ns.length ≤ a.count .free) :
    (ns.foldl (fun a _ => a.take .shift) a).count .free + ns.length = a.count .free ∧
      (ns.foldl (fun a _ => a.take .shift) a).count .shift = a.count .shift + ns.length := by
  induction ns generalizing a with
  | nil => exact ⟨rfl, rfl⟩
  | cons n ns ih =>
    simp only [List.length_cons] at h
    have one := Arbiter.take_shift_counts (a := a) (by omega)
    have rest := ih (a := a.take .shift) (by omega)
    simp only [List.foldl_cons, List.length_cons]
    omega

/-- The arbiter when a shift request of `n` slots is granted. -/
def Arbiter.shiftServed (a : Arbiter) (n : Nat) : Arbiter :=
  { (List.range n).foldl (fun a _ => a.take .shift) a with shiftWait := none }

theorem Arbiter.shiftServed_counts (h : n ≤ a.count .free) : (a.shiftServed n).count .free + n = a.count .free ∧
    (a.shiftServed n).count .shift = a.count .shift + n := by
  have counts := takes_shift_counts (a := a) (List.range n) (by rw [List.length_range]; exact h)
  rw [List.length_range] at counts
  exact counts

theorem Arbiter.shiftServed_facWait (a : Arbiter) (n : Nat) : (a.shiftServed n).facWait = a.facWait :=
  (takes_shift (List.range n) a).1

theorem Arbiter.shiftServed_fac (a : Arbiter) (n : Nat) : (a.shiftServed n).count .fac = a.count .fac :=
  (takes_shift (List.range n) a).2

/-! ### The two steps -/

theorem State.decideFill_refused (h : ¬(s.clutchHdr.supplyMin : Int) ≤ s.shown supplyPress) : s.decideFill = s := by
  simp [State.decideFill, State.supplyOk, h]

theorem State.decideFill_supplied (h : (s.clutchHdr.supplyMin : Int) ≤ s.shown supplyPress) :
    s.decideFill = s.grantShift.grantFac := by
  simp [State.decideFill, State.supplyOk, h]

theorem State.grantShift_none (h : s.arbiter.shiftWait = none) : s.grantShift = s := by
  simp only [State.grantShift, h]

theorem State.grantShift_few (h : s.arbiter.shiftWait = some n) (few : s.arbiter.count .free < n) : s.grantShift = s := by
  simp only [State.grantShift, h, if_neg (Nat.not_le.2 few)]

theorem State.grantShift_served (h : s.arbiter.shiftWait = some n) (enough : n ≤ s.arbiter.count .free) :
    s.grantShift = ({ s with arbiter := s.arbiter.shiftServed n } : State).shiftGranted := by
  simp only [State.grantShift, h, if_pos enough]
  rfl

/-- The front axle's request waits behind a shift request. -/
theorem State.grantFac_behind (h : s.arbiter.shiftWait ≠ none) : s.grantFac = s :=
  if_neg fun k => h k.2.2

theorem State.grantFac_none (h : s.arbiter.facWait = false) : s.grantFac = s :=
  if_neg fun k => by simp [h] at k

theorem State.grantFac_few (h : s.arbiter.count .free = 0) : s.grantFac = s :=
  if_neg fun k => by simp [h] at k

theorem State.grantFac_served (wait : s.arbiter.facWait = true) (enough : 1 ≤ s.arbiter.count .free)
    (first : s.arbiter.shiftWait = none) (state : s.fac.state = .releaseWait) :
    s.grantFac = ({ s with arbiter := { s.arbiter.take .fac with facWait := false } } : State).facGranted :=
  (if_pos ⟨wait, enough, first⟩).trans (if_pos state)

/-- The second step leaves the Shift Engine and what it has been granted. -/
theorem State.grantFac_shift (s : State) : s.grantFac.shift = s.shift ∧
    s.grantFac.arbiter.shiftWait = s.arbiter.shiftWait ∧ s.grantFac.arbiter.count .shift = s.arbiter.count .shift := by
  have take (a : Arbiter) : (a.take .fac).shiftWait = a.shiftWait ∧ (a.take .fac).count .shift = a.count .shift := by
    obtain ⟨x, y, w, f⟩ := a
    cases x <;> cases y <;> simp [Arbiter.take, Arbiter.count]
  rw [State.grantFac]
  split
  · split
    · obtain ⟨arbiter, shift, -⟩ := State.facGranted_eq { s with arbiter := { s.arbiter.take .fac with facWait := false } }
      rw [arbiter, shift]
      exact ⟨rfl, take s.arbiter⟩
    · exact ⟨rfl, rfl, rfl⟩
  · exact ⟨rfl, rfl, rfl⟩

theorem State.shiftGranted_arbiter (s : State) : s.shiftGranted.arbiter = s.arbiter := by
  have opens (u : State) : u.openWindow.arbiter = u.arbiter := rfl
  simp only [State.shiftGranted]
  split
  · rfl
  · split
    · split
      · exact opens _
      · rfl
    · rfl

theorem State.shiftGranted_waiting {o : Order} (order : s.shift.order = some o) (wait : o.phase = .waitSupply) :
    s.shiftGranted.shift.order =
      some { o with phase := if o.engaging then .fill else .prepare, count := 0, driving := true } := by
  have opens (u : State) : u.openWindow.shift = u.shift := rfl
  simp only [State.shiftGranted, order, if_pos wait]
  split
  · exact congrArg Shift.order (opens _)
  · rfl

/-- The front axle after a shift request has been served. -/
theorem State.grantFac_afterShift (first : s.arbiter.shiftWait = none) (wait : s.arbiter.facWait = true)
    (state : s.fac.state = .releaseWait) :
    s.grantFac.fac.state = if 1 ≤ s.arbiter.count .free then .releaseFill else .releaseWait := by
  split
  · rw [State.grantFac_served wait ‹_› first state]
    exact (State.facGranted_eq _).2.2.1
  · rw [State.grantFac_few (by omega), state]

end

/-- Settles O47. -/
theorem grantDecisionServesTheShiftFirst : Obligations.GrantDecisionServesTheShiftFirst := by
  intro s supply freeSlots
  refine ⟨State.decideFill_refused, fun n wait few => ?_, fun n supplied wait enough => ?_,
    fun supplied first wait state enough => ?_, fun first wait => ?_⟩
  · by_cases supplied : supply
    · rw [State.decideFill_supplied supplied, State.grantShift_few wait few]
      exact State.grantFac_behind (by rw [wait]; exact Option.some_ne_none n)
    · exact State.decideFill_refused supplied
  · have served := State.grantShift_served wait enough
    have arbiter : s.grantShift.arbiter = s.arbiter.shiftServed n := by rw [served, State.shiftGranted_arbiter]
    obtain ⟨free, shift⟩ := Arbiter.shiftServed_counts enough
    obtain ⟨order', wait', count'⟩ := s.grantShift.grantFac_shift
    rw [State.decideFill_supplied supplied]
    refine ⟨by rw [wait', arbiter]; rfl, by rw [count', arbiter, shift], fun o order phase => ?_, fun facWait state => ?_⟩
    · rw [order', served]
      exact State.shiftGranted_waiting order phase
    · rw [State.grantFac_afterShift (by rw [arbiter]; rfl) (by rw [arbiter, Arbiter.shiftServed_facWait, facWait])
        (by rw [State.grantShift_fac, state]), arbiter]
      refine ite_of_iff ?_
      omega
  · have step : s.decideFill = s.grantFac := by rw [State.decideFill_supplied supplied, State.grantShift_none first]
    rw [step]
    have granted := State.grantFac_served wait enough first state
    obtain ⟨arbiter, shift, fac, -⟩ := State.facGranted_eq { s with arbiter := { s.arbiter.take .fac with facWait := false } }
    rw [granted, arbiter, shift]
    exact ⟨fac, rfl, Arbiter.take_fac_counts enough, rfl⟩
  · by_cases supplied : supply
    · rw [State.decideFill_supplied supplied, State.grantShift_none first, State.grantFac_none wait]
    · exact State.decideFill_refused supplied

end Sys2Proof.Machine

/-! ### Slot timers (R13, R14) -/

namespace Sys2Proof.Machine

section

variable {s t u v : State} {i : Fin 16}

theorem State.expire_now (s : State) (x : Timer) : (s.expire x).now = max s.now (x.getD 0) := by
  cases x with
  | none => exact (Nat.max_self s.now).trans (Nat.max_zero s.now).symm
  | some d => rfl

/-- A slot announced, and the events run. -/
theorem State.slotAnnounced_reacts (s : State) (n : SlotNews) : Reacts s (s.announceSlots n).settled :=
  (State.announceSlots_acts (.refl s) n).reacts.trans (State.settled_reacts _)

theorem Reacts.slot (h : Reacts s t) (j : Fin 16) : t.slot j = s.slot j :=
  congrArg (fun x : Intake => x.slots[j]) h.intake

/-- A slot timer has passed: slot `i` stands at `x`, and nothing else but the faults and the other blocks moves. -/
structure SlotPassed (s t : State) (i : Fin 16) (x : Slot) : Prop where
  now : t.now = max s.now ((s.slot i).timer.getD 0)
  slot : t.slot i = x
  others : ∀ j, j ≠ i → t.slot j = s.slot j
  record : t.intake.record = s.intake.record
  tables : t.tables = s.tables
  mgmt : t.mgmt = s.mgmt

theorem SlotPassed.reacts {x : Slot} (h : SlotPassed s t i x) (k : Reacts t u) : SlotPassed s u i x where
  now := k.now.trans h.now
  slot := (k.slot i).trans h.slot
  others j ne := (k.slot j).trans (h.others j ne)
  record := (congrArg Intake.record k.intake).trans h.record
  tables := k.tables.trans h.tables
  mgmt := k.mgmt.trans h.mgmt

theorem State.setSlot_passed (s : State) (i : Fin 16) (x : Slot) :
    SlotPassed s ((s.expire (s.slot i).timer).setSlot i x) i x where
  now := s.expire_now _
  slot := by rw [State.slot_setSlot, if_pos rfl]
  others j ne := by rw [State.slot_setSlot, if_neg (Ne.symm ne)]; rfl
  record := rfl
  tables := rfl
  mgmt := rfl

/-- The slot is lost when its timer has passed. -/
def State.slotLost (s : State) (i : Fin 16) : State := (s.expire (s.slot i).timer).loseSlot i

theorem State.slotLost_passed (s : State) (i : Fin 16) :
    SlotPassed s (s.slotLost i) i ⟨.substituted, (s.slot i).last, none⟩ :=
  { State.setSlot_passed s i _ with }

/-- SUBSTITUTED, with SIGNAL_LOST raised and standing. -/
theorem State.slotLost_settles (s : State) (i : Fin 16) (n : SlotNews) :
    let t := ((s.slotLost i).announceSlots n).settled
    SlotPassed s t i ⟨.substituted, (s.slot i).last, none⟩ ∧
      (s.faults.raised .signalLost i.val (some (t.now + 1000 * Config.msTicks))).Holds .signalLost i.val t.faults := by
  intro t
  have events : Reacts (s.slotLost i) t := State.slotAnnounced_reacts _ n
  refine ⟨(s.slotLost_passed i).reacts events, ?_⟩
  rw [events.now]
  exact events.faults.holds i.val rfl

theorem next_slotTimeout (reset : s.resetting = none) (running : (s.slot i).state = .fresh ∨ (s.slot i).state = .waiting) :
    exec (.slotTimeout i) s = .next (s.slotTimedOut i).settled :=
  (next_unlessReset reset).trans (congrArg Host.Outcome.next (if_pos running))

theorem next_slotHoldExpiry (reset : s.resetting = none) (held : (s.slot i).state = .held) :
    exec (.slotHoldExpiry i) s = .next (s.slotHoldPassed i).settled :=
  (next_unlessReset reset).trans (congrArg Host.Outcome.next (if_pos held))

theorem State.slotTimedOut_held (fresh : (s.slot i).state = .fresh) (hold : 0 < holdMsOf (s.inUse .slotTable) i) :
    s.slotTimedOut i = ((s.expire (s.slot i).timer).setSlot i { s.slot i with
      state := .held
      timer := (s.expire (s.slot i).timer).after (holdMsOf (s.inUse .slotTable) i) }).announceSlots ⟨[], [], [i]⟩ :=
  congrArg (State.announceSlots _) (if_pos ⟨fresh, hold⟩)

theorem State.slotTimedOut_lost (h : ¬((s.slot i).state = .fresh ∧ 0 < holdMsOf (s.inUse .slotTable) i)) :
    s.slotTimedOut i = (s.slotLost i).announceSlots ⟨[], [], [i]⟩ :=
  congrArg (State.announceSlots _) (if_neg h)

end

/-- Settles O40. -/
theorem slotTimersHoldThenSubstitute : Obligations.SlotTimersHoldThenSubstitute := by
  intro s i reset x hold
  have ticks : 0 < Config.msTicks := by decide
  refine ⟨fun fresh positive => ?_, fun lost => ?_, fun held => ?_⟩
  · have ms : 0 < holdMsOf (s.inUse .slotTable) i := Nat.pos_of_mul_pos_right positive
    refine ⟨_, next_slotTimeout reset (.inl fresh), ?_⟩
    rw [State.slotTimedOut_held fresh ms]
    have events := State.slotAnnounced_reacts ((s.expire (s.slot i).timer).setSlot i { s.slot i with
      state := .held
      timer := (s.expire (s.slot i).timer).after (holdMsOf (s.inUse .slotTable) i) }) ⟨[], [], [i]⟩
    have passed := (s.setSlot_passed i _).reacts events
    refine ⟨passed.now, passed.slot.trans ?_, passed.others, passed.record, passed.tables, passed.mgmt⟩
    rw [events.now]
    rfl
  · have notHeld : ¬((s.slot i).state = .fresh ∧ 0 < holdMsOf (s.inUse .slotTable) i) := by
      rintro ⟨fresh, positive⟩
      rcases lost with ⟨-, zero⟩ | waiting
      · exact absurd zero (Nat.ne_of_gt (Nat.mul_pos positive ticks))
      · exact absurd (fresh.symm.trans waiting) (by decide)
    refine ⟨_, next_slotTimeout reset (lost.imp And.left id), ?_⟩
    rw [State.slotTimedOut_lost notHeld]
    obtain ⟨passed, stands⟩ := s.slotLost_settles i ⟨[], [], [i]⟩
    exact ⟨passed.now, passed.slot, passed.others, stands, passed.record, passed.tables, passed.mgmt⟩
  · refine ⟨_, next_slotHoldExpiry reset held, ?_⟩
    obtain ⟨passed, stands⟩ := s.slotLost_settles i ⟨[], [], [i]⟩
    exact ⟨passed.now, passed.slot, passed.others, stands, passed.record, passed.tables, passed.mgmt⟩

end Sys2Proof.Machine

/-! ### Standstill (R31, R32, R171) -/

namespace Sys2Proof.Machine

section

variable {s t u v : State} {x : Time} {n : Notice} {before after : List Notice}

/-! ### The evaluation -/

theorem State.standstillCondition_iff (s : State) : s.standstillCondition = true ↔
    s.motion.record.vg < 20 ∧ s.motion.record.vw < 20 ∧ s.shown outSpeed < 10 ∧ s.motion.record.source ≠ .none := by
  simp [State.standstillCondition, and_assoc]

theorem State.evalStandstill_timed (holds : s.standstillCondition = true)
    (timed : s.motion.timer ≠ none ∨ s.motion.record.standstill = true) : s.evalStandstill = s := by
  have runs : (running s.motion.timer || s.motion.record.standstill) = true := by
    simpa [running, Option.isSome_iff_ne_none] using timed
  simp only [State.evalStandstill, holds, runs, if_true]

theorem State.evalStandstill_starts (holds : s.standstillCondition = true)
    (untimed : ¬(s.motion.timer ≠ none ∨ s.motion.record.standstill = true)) :
    s.evalStandstill = { s with motion := { s.motion with timer := some (s.now + 500 * Config.msTicks) } } := by
  have stopped : (running s.motion.timer || s.motion.record.standstill) = false := by
    simpa [running, Option.isSome_iff_ne_none] using untimed
  simp only [State.evalStandstill, holds, stopped, if_true, Bool.false_eq_true, if_false]
  rfl

theorem State.evalStandstill_ends (fails : s.standstillCondition = false) :
    s.evalStandstill = { s with motion := ⟨{ s.motion.record with standstill := false }, none⟩ } := by
  simp only [State.evalStandstill, fails, Bool.false_eq_true, if_false]

/-! ### The events of the expiry, outside RUN and with the front axle ENGAGED -/

/-- An update of the Motion Record in which no coupled braking starts brings these events at most. -/
def Notice.Calm (n : Notice) : Prop := n = .axle ∨ n = .exit ∨ ∃ k, n = .gear k

/-- Such events are all that waits after `v`, and none of them has moved the operating state. -/
structure Calm (v t : State) : Prop where
  reacts : Reacts v t
  mode : t.mode = v.mode
  motion : t.motion = v.motion
  engaged : t.fac.state = .engaged
  waits : ∀ n ∈ t.notices, n.Calm

theorem mem_of_left {m : Notice} (h : m ∈ before ++ after) : m ∈ before ++ n :: after := by
  rcases List.mem_append.1 h with first | last
  · exact List.mem_append_left _ first
  · exact List.mem_append_right _ (List.mem_cons_of_mem n last)

/-- One of them leaves the list. -/
theorem Calm.drop (h : Calm v t) (waits : t.notices = before ++ n :: after) :
    Calm v { t with notices := before ++ after } :=
  ⟨h.reacts.acts ((Acts.refl t).withNotices _), h.mode, h.motion, h.engaged,
    fun m mem => h.waits m (by rw [waits]; exact mem_of_left mem)⟩

/-- An engagement that is forced and stands already. -/
theorem State.facEvaluate_stands (engaged : s.fac.state = .engaged) (op : s.mode.op ≠ .run) : s.facEvaluate = s := by
  have forced : s.facForced = true := by simp [State.facForced, op]
  simp only [State.facEvaluate, forced, if_true, State.facEngage, engaged]

theorem State.takeGear_still (s : State) (k : MotionNews) : Still s (s.takeNotice (.gear k)) :=
  State.gearDecide_still (State.onlyIf_still (.refl s) _ State.gearBrakeStart_still) true

/-- Any of them but the exit test leaves the others waiting. -/
theorem Calm.take (h : Calm v t) (op : v.mode.op ≠ .run) (waits : t.notices = before ++ n :: after) (other : n ≠ .exit) :
    Calm v (({ t with notices := before ++ after } : State).takeNotice n) ∧
      (({ t with notices := before ++ after } : State).takeNotice n).notices = before ++ after := by
  have left := h.drop waits
  have same : ({ t with notices := before ++ after } : State).notices = before ++ after := rfl
  generalize ({ t with notices := before ++ after } : State) = w at left same
  rcases h.waits n (by rw [waits]; exact List.mem_append_right _ List.mem_cons_self) with rfl | rfl | ⟨k, rfl⟩
  · have stands : w.takeNotice .axle = w := State.facEvaluate_stands left.engaged (by rw [left.mode]; exact op)
    rw [stands]
    exact ⟨left, same⟩
  · exact absurd rfl other
  · obtain ⟨fac, notices, motion, -, mode, -⟩ := w.takeGear_still k (by rw [left.engaged]; decide)
    refine ⟨⟨left.reacts.trans (w.takeNotice_reacts _), mode.trans left.mode, motion.trans left.motion, ?_, ?_⟩,
      notices.trans same⟩
    · rw [fac, left.engaged]
    · rw [notices]
      exact left.waits

/-- Where the exit test says nothing, none of the events moves the operating state. -/
theorem Calm.settles (h : Calm v t) (op : v.mode.op.still = true) : Calm v t.settled := by
  have notRun : v.mode.op ≠ .run := by
    intro run
    rw [run] at op
    cases op
  refine State.settled_takes (P := Calm v) (fun t m k => ?_) (fun t before n after waits k => ?_) h
  · exact ⟨k.reacts.acts ((Acts.refl t).withFree m), k.mode, k.motion, k.engaged, k.waits⟩
  · by_cases exit : n = .exit
    · subst exit
      have stays : ({ t with notices := before ++ after } : State).takeNotice .exit =
          { t with notices := before ++ after } := State.exitTest_still _ (by rw [← k.mode] at op; exact op)
      rw [stays]
      exact k.drop waits
    · exact (k.take notRun waits exit).1

/-! ### The departure from SAFE_STOP -/

/-- SAFE_STOP has been left for RUN, and no cause stands against it. -/
structure Departed (v t : State) : Prop where
  reacts : Reacts v t
  mode : t.mode = { v.mode with op := .run, runTimer := some (v.now + 600000 * Config.msTicks) }

/-- What may leave SAFE_STOP, and what RUN then asks (R170, R171). -/
structure MayDepart (v : State) : Prop where
  op : v.mode.op = .safeStop
  standstill : v.motion.record.standstill = true
  direction : v.intake.record.direction = .n
  noStop : v.safeStopCause = false
  noDegraded : v.degradedCause = false

theorem Departed.parked (h : Departed v t) (may : MayDepart v) : t.Parked := by
  obtain ⟨stop, degraded⟩ := h.reacts.causes
  exact .inr (.inr (.inr (.inr (.inl ⟨by rw [h.mode], stop.trans may.noStop, degraded.trans may.noDegraded⟩))))

theorem Departed.acts (h : Departed v t) (k : Acts t u) : Departed v u := ⟨h.reacts.acts k, k.mode.trans h.mode⟩

theorem Departed.take (h : Departed v t) (may : MayDepart v) (n : Notice) : Departed v (t.takeNotice n) :=
  h.acts (State.takeNotice_acts (.refl t) n (fun _ => (h.parked may).causeEval) fun _ => (h.parked may).exitTest)

/-- The exit test passes. -/
theorem Calm.departs (h : Calm v t) (may : MayDepart v) : Departed v t.exitTest := by
  have passes : t.exitTest = t.setOp .run := if_pos
    ⟨by rw [h.mode]; exact may.op, by rw [h.motion]; exact may.standstill,
      by rw [h.reacts.intake]; exact may.direction, h.reacts.causes.1.trans may.noStop⟩
  rw [passes]
  refine ⟨h.reacts.trans (t.setOp_reacts .run), ?_⟩
  rw [State.setOp_mode, h.mode, if_pos rfl]
  exact congrArg (fun time => { v.mode with op := .run, runTimer := some (time + 600000 * Config.msTicks) }) h.reacts.now

/-- In any order: the exit test waits until it is taken, and it is taken before the events run out. -/
theorem Calm.orders {fuel : Nat} (may : MayDepart v) (order : Ordered fuel t u) (h : Calm v t)
    (exits : .exit ∈ t.notices) (enough : t.notices.length ≤ fuel) : Departed v u := by
  induction order with
  | done empty =>
    rw [empty] at exits
    cases exits
  | out s => exact absurd (List.length_pos_of_mem exits) (by omega)
  | @take fuel s t before after n waits first rest ih =>
    by_cases exit : n = .exit
    · subst exit
      exact rest.keeps (fun t before n after _ k => (k.acts ((Acts.refl t).withNotices _)).take may n)
        ((h.drop waits).departs may)
    · obtain ⟨calm, same⟩ := h.take (by rw [may.op]; decide) waits exit
      rw [waits] at exits enough
      refine ih calm ?_ ?_
      · rw [same]
        rcases List.mem_append.1 exits with first | last
        · exact List.mem_append_left _ first
        · rcases List.mem_cons.1 last with now | later
          · exact absurd now.symm exit
          · exact List.mem_append_right _ later
      · rw [same]
        simp only [List.length_append, List.length_cons] at enough ⊢
        omega

theorem Calm.departsSettled (h : Calm v t) (may : MayDepart v) (exits : .exit ∈ t.notices)
    (few : t.notices.length ≤ Config.settleFuel) : Departed v t.settled :=
  State.settled_of_orders (fun t m k => k.acts ((Acts.refl t).withFree m)) fun _ order => h.orders may order exits few

/-! ### The expiry -/

/-- The Motion Record has changed by the expiry of the standstill timer at `x`. -/
def State.stoodStill (s : State) (x : Time) : State :=
  { s.expire (some x) with motion := ⟨{ s.motion.record with standstill := true }, none⟩ }

/-- The update tells the selector, the front axle and the Mode Controller. -/
theorem State.standstillReached_calm (quiet : s.notices = []) (timer : s.motion.timer = some x)
    (moving : s.motion.record.standstill = false) (engaged : s.fac.state = .engaged) :
    Calm (s.stoodStill x) s.standstillReached ∧ .exit ∈ s.standstillReached.notices ∧
      s.standstillReached.notices.length ≤ Config.settleFuel := by
  have news : motionNews s.motion.record { s.motion.record with standstill := true } =
      { changed := true, standstillChanged := true, brakeStart := false, brakeEnd := false } := by
    have differs : (s.motion.record != { s.motion.record with standstill := true }) = true :=
      bne_iff_ne.2 fun same => by
        have standstill : s.motion.record.standstill = true := congrArg MotionRecord.standstill same
        rw [moving] at standstill
        cases standstill
    simp [motionNews, differs, moving]
  have reached : s.standstillReached = (s.stoodStill x).motionChanged s.motion.record false := by
    rw [State.standstillReached, timer]
    rfl
  have announced : s.standstillReached = (s.stoodStill x).announceMotion
      { changed := true, standstillChanged := true, brakeStart := false, brakeEnd := false } := by
    have record : (s.stoodStill x).motion.record = { s.motion.record with standstill := true } := rfl
    rw [reached, State.motionChanged, record, news]
    rfl
  have acts : Acts (s.stoodStill x) s.standstillReached := by
    rw [reached]
    exact State.motionChanged_acts (.refl _) _ false
  rw [announced] at acts ⊢
  have same : (s.stoodStill x).notices = [] := quiet
  have axle : (s.stoodStill x).fac.state = .engaged := engaged
  generalize s.stoodStill x = v at acts same axle ⊢
  have notices : (v.announceMotion ⟨true, true, false, false⟩).notices =
      [.gear ⟨true, true, false, false⟩, .axle, .exit] := by
    show v.notices ++ _ = _
    rw [same]
    rfl
  refine ⟨⟨acts.reacts, acts.mode, rfl, axle, ?_⟩, ?_, ?_⟩
  · rw [notices]
    simp [Notice.Calm]
  · rw [notices]
    simp
  · rw [notices]
    decide

end

/-- Settles O42: outside RUN the front axle stays ENGAGED through the events, and in SAFE_STOP the exit test is among them. -/
theorem standstillIsTimedAndEndsSafeStop : Obligations.StandstillIsTimedAndEndsSafeStop := by
  refine ⟨?_, fun s x ready timer moving => ⟨fun op engaged => ?_, fun op engaged direction noStop noDegraded => ?_⟩,
    fun s stopped reset => next_no_expiry (timer := (·.motion.timer)) reset stopped⟩
  · intro s holds timed
    have condition := s.standstillCondition_iff
    exact ⟨fun h => State.evalStandstill_timed (condition.2 h), fun h => State.evalStandstill_starts (condition.2 h),
      fun h => State.evalStandstill_ends (Bool.eq_false_iff.2 fun c => h (condition.1 c))⟩
  · refine ⟨_, next_expiry (timer := (·.motion.timer)) ready.1 timer, ?_⟩
    obtain ⟨calm, -, -⟩ := State.standstillReached_calm ready.2 timer moving engaged
    have still : (s.stoodStill x).mode.op.still = true := by
      show s.mode.op.still = true
      rcases op with h | h | h <;> rw [h] <;> rfl
    have settled := calm.settles still
    exact ⟨settled.reacts.now, settled.motion, settled.mode, settled.reacts.intake, settled.reacts.tables⟩
  · refine ⟨_, next_expiry (timer := (·.motion.timer)) ready.1 timer, ?_⟩
    obtain ⟨calm, exits, few⟩ := State.standstillReached_calm ready.2 timer moving engaged
    have may : MayDepart (s.stoodStill x) := ⟨op, rfl, direction,
      Bool.eq_false_iff.2 fun c => noStop (s.safeStopCause_iff.1 c),
      Bool.eq_false_iff.2 fun c => noDegraded (s.degradedCause_iff.1 c)⟩
    have departed := calm.departsSettled may exits few
    refine ⟨by rw [departed.mode], ?_, by rw [departed.mode]; rfl, departed.reacts.intake, departed.reacts.tables⟩
    rw [departed.mode, departed.reacts.now]

end Sys2Proof.Machine

/-! ### The gearbox side of a command, and what it leaves of the front axle (chapters 3 to 6)

Its acts write the gearbox blocks and ask for grant decisions, and that is all: what every such write and every decision
keeps, each of them keeps. -/

namespace Sys2Proof.Machine

/-- `s` comes of `s0` by writes to the gearbox's blocks and by grant decisions that find the front axle's request and
slots as they were. -/
inductive Geared (s0 : State) : State → Prop
  | start : Geared s0 s0
  | writes {s : State} (h : Geared s0 s) (gear : Gear) (shift : Shift) (trailer : Trailer) (neut : Bool) (mail : Mailboxes)
      (tLink vLink : LinkCtl) : Geared s0
        { s with gear := gear, shift := shift, trailer := trailer, neut := neut, mail := mail, tLink := tLink, vLink := vLink }
  | decides {s : State} (h : Geared s0 s) (a : Arbiter) (wait : a.facWait = s.arbiter.facWait)
      (held : a.count .fac = s.arbiter.count .fac) : Geared s0 ({ s with arbiter := a } : State).decideFill

section

variable {s0 s : State}

theorem giveBack_facWait (a : Arbiter) (h : Holder) : (a.giveBack h).facWait = a.facWait := rfl

@[simp] theorem Geared.withTrailer (h : Geared s0 s) (x : Trailer) : Geared s0 { s with trailer := x } :=
  h.writes s.gear s.shift x s.neut s.mail s.tLink s.vLink

@[simp] theorem Geared.withShift (h : Geared s0 s) (x : Shift) : Geared s0 { s with shift := x } :=
  h.writes s.gear x s.trailer s.neut s.mail s.tLink s.vLink

@[simp] theorem Geared.withNeut (h : Geared s0 s) (x : Bool) : Geared s0 { s with neut := x } :=
  h.writes s.gear s.shift s.trailer x s.mail s.tLink s.vLink

@[simp] theorem Geared.withGear (h : Geared s0 s) (f : Gear → Gear) : Geared s0 (s.withGear f) :=
  h.writes (f s.gear) s.shift s.trailer s.neut s.mail s.tLink s.vLink

@[simp] theorem State.onlyIf_geared (h : Geared s0 s) (c : Bool) {f : State → State} (hf : Geared s0 s → Geared s0 (f s)) :
    Geared s0 (s.onlyIf c f) := by
  unfold State.onlyIf
  split
  · exact hf h
  · exact h

@[simp] theorem State.setNeut_geared (h : Geared s0 s) : Geared s0 s.setNeut := h.withNeut _

@[simp] theorem State.withOrder_geared (h : Geared s0 s) (o : Order) : Geared s0 (s.withOrder o) := h.withShift _

@[simp] theorem State.shiftRecord_geared (h : Geared s0 s) (data : List Byte) : Geared s0 (s.writeMail .shiftRecord data) := by
  rw [State.writeMail_fields]
  exact h.writes s.gear s.shift s.trailer s.neut _ _ _

@[simp] theorem State.holdIfLatched_geared (h : Geared s0 s) : Geared s0 s.holdIfLatched := h.withTrailer _

@[simp] theorem State.trailerEvaluate_geared (h : Geared s0 s) : Geared s0 s.trailerEvaluate := by
  unfold State.trailerEvaluate; simp [h]

@[simp] theorem State.openWindow_geared (h : Geared s0 s) : Geared s0 s.openWindow := by
  unfold State.openWindow; simp [h]

@[simp] theorem State.closeWindow_geared (h : Geared s0 s) : Geared s0 s.closeWindow := by
  unfold State.closeWindow; split <;> simp [h]

@[simp] theorem State.shiftRequest_geared (h : Geared s0 s) (n : Nat) : Geared s0 (s.shiftRequest n) :=
  h.decides { s.arbiter with shiftWait := some n } rfl rfl

@[simp] theorem State.shiftWithdraw_geared (h : Geared s0 s) : Geared s0 s.shiftWithdraw :=
  h.decides { s.arbiter with shiftWait := none } rfl rfl

@[simp] theorem State.shiftGiveBack_geared (h : Geared s0 s) : Geared s0 s.shiftGiveBack :=
  h.decides (s.arbiter.giveBack .shift) (giveBack_facWait _ _) (Arbiter.count_giveBack_shift _)

@[simp] theorem State.keepTarget_geared (h : Geared s0 s) : Geared s0 s.keepTarget := by
  unfold State.keepTarget; split <;> simp [h]

/-! ### Orders taken (R45 to R52) -/

@[simp] theorem State.enterOrder_geared (h : Geared s0 s) (o : Order) : Geared s0 (s.enterOrder o) := by
  have a : Geared s0 ({ s with shift := { s.shift with order := some o } } : State).setNeut :=
    State.setNeut_geared (h.withShift _)
  unfold State.enterOrder
  simp only
  split
  · exact State.shiftRequest_geared a _
  · exact a

@[simp] theorem State.takeOrder_geared (h : Geared s0 s) (k : OrderKind) (a b : Option Nat) (d e : Dir) :
    Geared s0 (s.takeOrder k a b d e) := by
  unfold State.takeOrder; simp (maxDischargeDepth := 9) [h]

@[simp] theorem State.issueSwap_geared (h : Geared s0 s) (a b : Nat) : Geared s0 (s.issueSwap a b) := by
  unfold State.issueSwap; simp (maxDischargeDepth := 9) [h]

@[simp] theorem State.issueFree_geared (h : Geared s0 s) (b : Nat) : Geared s0 (s.issueFree b) := by
  unfold State.issueFree; simp (maxDischargeDepth := 9) [h]

@[simp] theorem State.issueRelease_geared (h : Geared s0 s) (d : Dir) : Geared s0 (s.issueRelease d) := by
  unfold State.issueRelease
  exact State.takeOrder_geared (h.withGear _) _ _ _ _ _

@[simp] theorem State.requestInN_geared (h : Geared s0 s) (x : Dir) : Geared s0 (s.requestInN x) := by
  have p : Geared s0 (s.withGear fun g => { g with presel := x }) := h.withGear _
  unfold State.requestInN
  split
  · exact h
  · exact State.takeOrder_geared (State.keepTarget_geared p) _ _ _ _ _

@[simp] theorem State.issueShuttle_geared (h : Geared s0 s) (x y : Dir) : Geared s0 (s.issueShuttle x y) := by
  unfold State.issueShuttle
  exact State.takeOrder_geared (h.withGear _) _ _ _ _ _

@[simp] theorem State.keepShuttle_geared (h : Geared s0 s) (x : Dir) : Geared s0 (s.keepShuttle x) := by
  unfold State.keepShuttle
  split
  · exact h
  · exact h.withGear _

@[simp] theorem State.scheduleTest_geared (h : Geared s0 s) : Geared s0 s.scheduleTest := by
  have stop : Geared s0 (s.withGear fun g => { g with deferral := .stopped }) := h.withGear _
  unfold State.scheduleTest
  split
  · exact h
  · simp only
    split
    · exact h
    · split
      · exact State.issueSwap_geared (stop.withGear _) _ _
      · exact stop
      · split
        · split
          · exact h.withGear _
          · exact h
        · exact State.issueSwap_geared (stop.withGear _) _ _

@[simp] theorem State.decideEngaged_geared (h : Geared s0 s) (m : Bool) : Geared s0 (s.decideEngaged m) := by
  unfold State.decideEngaged
  split
  · split
    · simp (maxDischargeDepth := 9) [h]
    · split <;> simp (maxDischargeDepth := 9) [h]
  · exact h

@[simp] theorem State.decideFree_geared (h : Geared s0 s) : Geared s0 s.decideFree := by
  unfold State.decideFree
  split
  · exact h
  · split <;> simp (maxDischargeDepth := 9) [h]

@[simp] theorem State.decideRequest_geared (h : Geared s0 s) (m : Bool) (x y : Dir) : Geared s0 (s.decideRequest m x y) :=
  by
  unfold State.decideRequest
  split
  · simp (maxDischargeDepth := 9) [h]
  · split
    · exact h
    · split <;> simp (maxDischargeDepth := 9) [h]

@[simp] theorem State.decideIdle_geared (h : Geared s0 s) (m : Bool) : Geared s0 (s.decideIdle m) := by
  unfold State.decideIdle
  split
  · split <;> simp (maxDischargeDepth := 9) [h]
  · split <;> simp (maxDischargeDepth := 9) [h]
  all_goals exact h

/-! ### Order ends (R50, R71, R78, R82) -/

@[simp] theorem State.orderEnd_geared (h : Geared s0 s) (o : Order) (r : OrderResult) (c : Int) :
    Geared s0 (s.orderEnd o r c) := by
  have a : Geared s0 (({ s with shift := { s.shift with order := none } } : State).withGear fun g => g.afterEnd o r) :=
    (h.withShift _).withGear _
  have b := State.shiftRecord_geared (State.keepTarget_geared a) (shiftRecordData o r c)
  unfold State.orderEnd
  apply State.decideIdle_geared
  apply State.setNeut_geared
  exact b.withGear _

@[simp] theorem State.abortSwap_geared (h : Geared s0 s) (o : Order) : Geared s0 (s.abortSwap o) := by
  unfold State.abortSwap
  split <;> simp (maxDischargeDepth := 9) [h]

@[simp] theorem State.handTarget_geared (h : Geared s0 s) (t : Option Nat) : Geared s0 (s.handTarget t) := by
  unfold State.handTarget
  split
  · exact h
  · simp only
    split
    · simp (maxDischargeDepth := 9) [h]
    · split <;> simp (maxDischargeDepth := 9) [h]

/-! ### A RELEASE or a new request on an order in flight (R48, R49, R80, R81) -/

@[simp] theorem State.endEngagement_geared (h : Geared s0 s) (o : Order) : Geared s0 (s.endEngagement o) := by
  unfold State.endEngagement
  split
  · exact h
  · simp only
    split <;> simp (maxDischargeDepth := 9) [h]

@[simp] theorem State.releaseOrder_geared (h : Geared s0 s) (o : Order) : Geared s0 (s.releaseOrder o) := by
  unfold State.releaseOrder
  split
  · split <;> simp (maxDischargeDepth := 9) [h]
  · split <;> simp (maxDischargeDepth := 9) [h]
  · simp (maxDischargeDepth := 9) [h]
  · exact h
  · exact h
  · split
    · exact (State.withOrder_geared h _).withGear _
    · simp (maxDischargeDepth := 9) [h]
    · simp (maxDischargeDepth := 9) [h]

@[simp] theorem State.release_geared (h : Geared s0 s) : Geared s0 s.release := by
  unfold State.release
  split
  · simp (maxDischargeDepth := 9) [h]
  · split <;> simp (maxDischargeDepth := 9) [h]

@[simp] theorem State.decideInFlight_geared (h : Geared s0 s) (o : Order) : Geared s0 (s.decideInFlight o) := by
  unfold State.decideInFlight
  split
  · simp (maxDischargeDepth := 9) [h]
  · split <;> simp (maxDischargeDepth := 9) [h]

@[simp] theorem State.gearDecide_geared (h : Geared s0 s) (m : Bool) : Geared s0 (s.gearDecide m) := by
  unfold State.gearDecide
  split
  · simp (maxDischargeDepth := 9) [h]
  · split <;> simp (maxDischargeDepth := 9) [h]

/-! ### Requests, headland, braking (R44, R52, R57, R58) -/

@[simp] theorem State.pressTarget_geared (h : Geared s0 s) (u d : Nat) : Geared s0 (s.pressTarget u d) := by
  unfold State.pressTarget
  split <;> simp (maxDischargeDepth := 9) [h]

@[simp] theorem State.newDirection_geared (h : Geared s0 s) : Geared s0 s.newDirection := by
  unfold State.newDirection
  split
  · exact h.withGear _
  · exact h

@[simp] theorem State.newShiftMode_geared (h : Geared s0 s) : Geared s0 s.newShiftMode := by
  unfold State.newShiftMode
  split
  · exact h.withGear _
  · exact h

@[simp] theorem State.headlandTarget_geared (h : Geared s0 s) (g : Nat) : Geared s0 (s.headlandTarget g) := by
  unfold State.headlandTarget; simp (maxDischargeDepth := 9) [h]

@[simp] theorem State.headlandOut_geared (h : Geared s0 s) : Geared s0 s.headlandOut := by
  unfold State.headlandOut
  simp only
  split
  · split <;> simp (maxDischargeDepth := 9) [h]
  · exact h

@[simp] theorem State.headlandIn_geared (h : Geared s0 s) (g : Option Nat) (d : DirState) : Geared s0 (s.headlandIn g d) :=
  by
  unfold State.headlandIn
  split
  · exact h
  · split
    · exact h
    · simp (maxDischargeDepth := 9) [h]
    · split <;> simp (maxDischargeDepth := 9) [h]

@[simp] theorem State.gearBrakeStart_geared (h : Geared s0 s) : Geared s0 s.gearBrakeStart := by
  have a : Geared s0 (s.handTarget s.heldTarget) := State.handTarget_geared h _
  unfold State.gearBrakeStart
  simp only
  split
  · split
    · exact State.abortSwap_geared a _
    · exact a
  · exact a

/-- What an accepted frame brings to the selector (R44, R45). -/
@[simp] theorem State.gearNews_geared (h : Geared s0 s) (n : OperatorNews) : Geared s0 (s.gearNews n) := by
  unfold State.gearNews
  refine State.onlyIf_geared ?_ _ fun k => State.gearDecide_geared k _
  apply State.pressTarget_geared
  refine State.onlyIf_geared ?_ _ State.newShiftMode_geared
  exact State.onlyIf_geared h _ State.newDirection_geared

/-! ### Changes of the Gear Table and of the operating state (R41 to R43, R83) -/

@[simp] theorem State.gearTableChanged_geared (h : Geared s0 s) : Geared s0 s.gearTableChanged := by
  unfold State.gearTableChanged
  apply State.gearDecide_geared
  exact h.withGear _

@[simp] theorem State.gearDegraded_geared (h : Geared s0 s) : Geared s0 s.gearDegraded := by
  have a : Geared s0 (s.withGear fun g => { g.dropShuttle with deferral := .stopped }) := h.withGear _
  unfold State.gearDegraded
  simp only
  split
  · split <;> simp (maxDischargeDepth := 9) [a]
  · split <;> simp (maxDischargeDepth := 9) [a]

@[simp] theorem State.gearSafeStop_geared (h : Geared s0 s) : Geared s0 s.gearSafeStop := by
  unfold State.gearSafeStop
  apply State.release_geared
  exact h.withGear _

@[simp] theorem State.gearSetup_geared (h : Geared s0 s) : Geared s0 s.gearSetup := by
  have a : Geared s0 (s.withGear fun g => { g.dropShuttle with deferral := .stopped }) := h.withGear _
  unfold State.gearSetup
  simp only
  split
  · simp (maxDischargeDepth := 9) [a]
  · split
    all_goals first | exact a | skip
    all_goals split <;> simp (maxDischargeDepth := 9) [a]

@[simp] theorem State.gearRun_geared (h : Geared s0 s) : Geared s0 s.gearRun := by
  unfold State.gearRun; simp (maxDischargeDepth := 9) [h]


end

end Sys2Proof.Machine

/-! ### The front axle in the events that follow its own changes of state (chapter 6) -/

namespace Sys2Proof.Machine

section

variable {s t u v : State} {n : Notice} {before after : List Notice} {k : MotionNews} {op : OpState}

/-! ### A grant decision, at the front axle -/

/-- The blocks that the gearbox side never writes. -/
structure AxleSide (s t : State) : Prop where
  now : t.now = s.now
  motion : t.motion = s.motion
  mode : t.mode = s.mode
  intake : t.intake = s.intake
  tables : t.tables = s.tables

theorem AxleSide.trans (h : AxleSide s t) (k : AxleSide t u) : AxleSide s u :=
  ⟨k.now.trans h.now, k.motion.trans h.motion, k.mode.trans h.mode, k.intake.trans h.intake, k.tables.trans h.tables⟩

/-- The front axle, what is announced and the front axle's slots are as before. -/
structure AxleStands (s t : State) : Prop where
  fac : t.fac = s.fac
  notices : t.notices = s.notices
  held : t.arbiter.count .fac = s.arbiter.count .fac

theorem AxleStands.trans (h : AxleStands s t) (k : AxleStands t u) : AxleStands s u :=
  ⟨k.fac.trans h.fac, k.notices.trans h.notices, k.held.trans h.held⟩

/-- A release that waited has got its slot, and the supply allowed it. -/
structure AxleGranted (s t : State) : Prop where
  waited : s.fac.state = .releaseWait
  supply : s.supplyOk = true
  fills : t.fac.state = .releaseFill
  dwell : t.fac.dwell = s.fac.dwell
  notices : t.notices = s.notices ++ [.refresh]

theorem State.supplyOk_same (intake : t.intake = s.intake) (tables : t.tables = s.tables) : t.supplyOk = s.supplyOk := by
  have slot (i : Fin 16) : t.slot i = s.slot i := congrArg (fun x : Intake => x.slots[i]) intake
  have press : t.shown supplyPress = s.shown supplyPress := by
    rw [State.shown, State.shown, State.usable, State.usable, slot, State.inUse_of_tables tables]
  rw [State.supplyOk, State.supplyOk, State.clutchHdr, State.clutchHdr, State.inUse_of_tables tables, press]

theorem State.shiftGranted_only (s : State) : ∃ shift trailer, s.shiftGranted = { s with shift := shift, trailer := trailer } := by
  simp only [State.shiftGranted]
  split
  · exact ⟨s.shift, s.trailer, rfl⟩
  · split
    · split <;> exact ⟨_, _, rfl⟩
    · exact ⟨s.shift, s.trailer, rfl⟩

theorem State.grantShift_axle (s : State) : AxleSide s s.grantShift ∧ AxleStands s s.grantShift := by
  rw [State.grantShift]
  split
  · exact ⟨⟨rfl, rfl, rfl, rfl, rfl⟩, ⟨rfl, rfl, rfl⟩⟩
  · split
    · obtain ⟨shift, trailer, granted⟩ := State.shiftGranted_only { s with arbiter := s.arbiter.shiftServed ‹Nat› }
      have served := s.arbiter.shiftServed_fac ‹Nat›
      simp only [Arbiter.shiftServed] at granted served
      simp only [granted]
      exact ⟨⟨rfl, rfl, rfl, rfl, rfl⟩, ⟨rfl, rfl, served⟩⟩
    · exact ⟨⟨rfl, rfl, rfl, rfl, rfl⟩, ⟨rfl, rfl, rfl⟩⟩

theorem State.facGranted_side (s : State) : AxleSide s s.facGranted ∧ s.facGranted.notices = s.notices ++ [.refresh] := by
  obtain ⟨now, tables, motion, mode, intake, -, notices, -⟩ := s.setFac_eq .releaseFill
  exact ⟨⟨now, motion, mode, intake, tables⟩, notices⟩

theorem State.grantFac_axle (s : State) : AxleSide s s.grantFac ∧
    (AxleStands s s.grantFac ∨ s.fac.state = .releaseWait ∧ s.grantFac.fac.state = .releaseFill ∧
      s.grantFac.fac.dwell = s.fac.dwell ∧ s.grantFac.notices = s.notices ++ [.refresh]) := by
  rw [State.grantFac]
  split
  · split
    · obtain ⟨side, notices⟩ := State.facGranted_side { s with arbiter := { s.arbiter.take .fac with facWait := false } }
      obtain ⟨-, -, fills, dwell, -⟩ := State.facGranted_eq { s with arbiter := { s.arbiter.take .fac with facWait := false } }
      exact ⟨⟨side.now, side.motion, side.mode, side.intake, side.tables⟩, .inr ⟨‹_›, fills, dwell, notices⟩⟩
    · exact ⟨⟨rfl, rfl, rfl, rfl, rfl⟩, .inl ⟨rfl, rfl, rfl⟩⟩
  · exact ⟨⟨rfl, rfl, rfl, rfl, rfl⟩, .inl ⟨rfl, rfl, rfl⟩⟩

/-- A decision gives the front axle its slot, or leaves it alone. -/
theorem State.decideFill_axle (s : State) : AxleSide s s.decideFill ∧ (AxleStands s s.decideFill ∨ AxleGranted s s.decideFill) := by
  rw [State.decideFill]
  split
  case isTrue supply =>
    obtain ⟨side, stands⟩ := s.grantShift_axle
    obtain ⟨side', result⟩ := s.grantShift.grantFac_axle
    refine ⟨side.trans side', ?_⟩
    rcases result with stands' | ⟨waited, fills, dwell, notices⟩
    · exact .inl (stands.trans stands')
    · exact .inr ⟨by rw [← stands.fac, waited], supply, fills, by rw [dwell, stands.fac], by rw [notices, stands.notices]⟩
  case isFalse => exact ⟨⟨rfl, rfl, rfl, rfl, rfl⟩, .inl ⟨rfl, rfl, rfl⟩⟩

/-- The gearbox side's acts do no more to the front axle than one grant. -/
theorem Geared.axle (h : Geared s t) : AxleSide s t ∧ (AxleStands s t ∨ AxleGranted s t) := by
  induction h with
  | start => exact ⟨⟨rfl, rfl, rfl, rfl, rfl⟩, .inl ⟨rfl, rfl, rfl⟩⟩
  | @writes u h gear shift trailer neut mail tLink vLink ih =>
    obtain ⟨side, result⟩ := ih
    refine ⟨⟨side.now, side.motion, side.mode, side.intake, side.tables⟩, result.imp (fun k => ⟨k.fac, k.notices, k.held⟩)
      fun k => ⟨k.waited, k.supply, k.fills, k.dwell, k.notices⟩⟩
  | @decides u h a wait held ih =>
    obtain ⟨side, result⟩ := ih
    obtain ⟨side', result'⟩ := State.decideFill_axle ({ u with arbiter := a } : State)
    have given : AxleSide u ({ u with arbiter := a } : State) := ⟨rfl, rfl, rfl, rfl, rfl⟩
    refine ⟨side.trans (given.trans side'), ?_⟩
    rcases result with stands | granted
    · refine result'.imp (fun stands' => stands.trans ⟨stands'.fac, stands'.notices, stands'.held.trans held⟩) fun granted' => ?_
      have supply : ({ u with arbiter := a } : State).supplyOk = s.supplyOk := State.supplyOk_same side.intake side.tables
      exact ⟨(congrArg Fac.state stands.fac).symm.trans granted'.waited, supply.symm.trans granted'.supply,
        granted'.fills, granted'.dwell.trans (congrArg Fac.dwell stands.fac),
        granted'.notices.trans (congrArg (· ++ [.refresh]) stands.notices)⟩
    · have stands' := result'.resolve_right fun granted' => by
        have both := granted.fills.symm.trans granted'.waited
        cases both
      exact .inr ⟨granted.waited, granted.supply, (congrArg Fac.state stands'.fac).trans granted.fills,
        (congrArg Fac.dwell stands'.fac).trans granted.dwell, stands'.notices.trans granted.notices⟩

theorem State.decideFill_geared (s : State) : Geared s s.decideFill := Geared.start.decides s.arbiter rfl rfl

theorem State.takeGear_geared (s : State) (k : MotionNews) : Geared s (s.takeNotice (.gear k)) :=
  State.gearDecide_geared (State.onlyIf_geared .start _ State.gearBrakeStart_geared) true

theorem State.takeEntry_geared (s : State) (op : OpState) : Geared s (s.takeNotice (.entry op)) := by
  cases op with
  | unloaded => exact .start
  | setup => exact State.gearSetup_geared .start
  | run => exact State.gearRun_geared .start
  | degraded => exact State.gearDegraded_geared .start
  | safeStop => exact State.gearSafeStop_geared .start
  | latched => exact State.gearSafeStop_geared .start

/-! ### A refresh of the Motion Record -/

/-- The events that a refresh brings: no coupled braking starts in it. -/
def Notice.AfterRefresh (n : Notice) : Prop := n = .refresh ∨ n = .axle ∨ n = .exit ∨ ∃ k, n = .gear k

/-- The motion record's update where coupled braking has not changed. -/
theorem motionNews_notices {a b : MotionRecord} (coupled : b.coupled = a.coupled) :
    (motionNews a b).brakeStart = false ∧ (motionNews a b).brakeEnd = false ∧
      (∀ n ∈ (motionNews a b).notices, n = .axle ∨ n = .exit ∨ ∃ k, n = .gear k) ∧ (motionNews a b).notices.length ≤ 3 := by
  have start : (motionNews a b).brakeStart = false := by simp [motionNews, coupled]
  have ends : (motionNews a b).brakeEnd = false := by simp [motionNews, coupled]
  refine ⟨start, ends, ?_⟩
  generalize motionNews a b = k at start
  obtain ⟨changed, standstillChanged, brakeStart, brakeEnd⟩ := k
  cases start
  cases changed <;> cases standstillChanged <;> simp [MotionNews.notices]

theorem State.evalStandstill_coupled (s : State) : s.evalStandstill.motion.record.coupled = s.motion.record.coupled := by
  rw [State.evalStandstill]
  simp only
  split
  · split <;> rfl
  · rfl

theorem State.evalStandstill_only (s : State) : s.evalStandstill = { s with motion := s.evalStandstill.motion } := by
  rw [State.evalStandstill]
  simp only
  split
  · split <;> rfl
  · rfl

/-- What a refresh leaves, and what it announces. -/
structure Refreshed (s t : State) : Prop where
  acts : Acts s t
  fac : t.fac = s.fac
  arbiter : t.arbiter = s.arbiter
  coupled : t.motion.record.coupled = s.motion.record.coupled
  notices : ∃ ns, t.notices = s.notices ++ ns ∧ (∀ n ∈ ns, n = .axle ∨ n = .exit ∨ ∃ k, n = .gear k) ∧ ns.length ≤ 3

theorem State.announceMotion_axle (s : State) (start : k.brakeStart = false) (ends : k.brakeEnd = false) :
    (s.announceMotion k).fac = s.fac ∧ (s.announceMotion k).arbiter = s.arbiter ∧ (s.announceMotion k).motion = s.motion ∧
      (s.announceMotion k).notices = s.notices ++ k.notices := by
  refine ⟨?_, rfl, rfl, rfl⟩
  show (s.facBrakeNews k).fac = s.fac
  simp only [State.facBrakeNews, start, ends, Bool.false_eq_true, if_false]

theorem State.refreshMotion_refreshed (s : State) : Refreshed s s.refreshMotion := by
  have acts : Acts s s.refreshMotion := State.refreshMotion_acts (.refl s)
  have only := (s.recompute false).evalStandstill_only
  have coupled : (s.recompute false).evalStandstill.motion.record.coupled = s.motion.record.coupled :=
    (State.evalStandstill_coupled _).trans rfl
  have refresh : s.refreshMotion = (s.recompute false).evalStandstill.announceMotion
      (motionNews s.motion.record (s.recompute false).evalStandstill.motion.record) := by
    rw [State.refreshMotion, State.motionChanged]
    rfl
  rw [refresh] at acts ⊢
  obtain ⟨start, ends, calm, few⟩ := motionNews_notices coupled
  generalize motionNews s.motion.record (s.recompute false).evalStandstill.motion.record = k at acts start ends calm few ⊢
  obtain ⟨fac, arbiter, motion, notices⟩ := State.announceMotion_axle (s.recompute false).evalStandstill start ends
  refine ⟨acts, fac.trans ?_, arbiter.trans ?_, (congrArg (·.record.coupled) motion).trans coupled,
    k.notices, notices.trans ?_, calm, few⟩
  · rw [only]; rfl
  · rw [only]; rfl
  · rw [only]; rfl

end

end Sys2Proof.Machine

/-! ### Front axle timers (R97 to R107) -/

namespace Sys2Proof.Machine

section

variable {s t u v : State} {n : Notice} {before after : List Notice} {k : MotionNews} {op : OpState}

/-! ### While the dwell runs, no evaluation moves the front axle but a forced engagement -/

/-- No engagement is forced (R98). -/
structure Unforced (t : State) : Prop where
  run : t.mode.op = .run
  coupled : t.motion.record.coupled = false
  driveMode : t.intake.record.driveMode ≠ .on

theorem State.facForced_iff (s : State) : s.facForced = true ↔
    s.motion.record.coupled = true ∨ s.mode.op ≠ .run ∨ s.intake.record.driveMode = .on := by
  simp [State.facForced, or_assoc]

theorem Unforced.facForced (h : Unforced t) : t.facForced = false := by
  simp [State.facForced, h.run, h.coupled, h.driveMode]

theorem State.facEvaluate_unforced (h : s.facForced = false) : s.facEvaluate = match s.facDemand with
    | .keep => s
    | .engage => if running s.fac.dwell then s else s.facEngage
    | .release =>
      if s.fac.state = .engaged ∧ running s.fac.dwell = false ∧ running s.fac.brakeHold = false
      then s.facRelease else s := by
  rw [State.facEvaluate, h]
  rfl

theorem State.facEvaluate_forced (h : s.facForced = true) : s.facEvaluate = s.facEngage := by
  rw [State.facEvaluate, if_pos h]

theorem State.facEngage_engaged (h : s.fac.state = .engaged) : s.facEngage = s := by
  simp only [State.facEngage, h]

theorem State.facEvaluate_dwelling (dwell : s.fac.dwell ≠ none) (unforced : s.fac.state ≠ .engaged → Unforced s) :
    s.facEvaluate = s := by
  have runs : running s.fac.dwell = true := Option.isSome_iff_ne_none.2 dwell
  cases forced : s.facForced with
  | true =>
    rw [State.facEvaluate_forced forced]
    refine State.facEngage_engaged (Decidable.by_contra fun h => ?_)
    exact absurd (forced.symm.trans (unforced h).facForced) Bool.noConfusion
  | false =>
    rw [State.facEvaluate_unforced forced]
    cases s.facDemand with
    | keep => rfl
    | engage => exact if_pos runs
    | release => exact if_neg fun h => absurd (runs.symm.trans h.2.1) Bool.noConfusion

/-! ### The events that follow a change of the front axle's state -/

/-- An entry into an operating state, and the cause evaluation that follows one into RUN. -/
def Notice.OfEntry (n : Notice) : Prop := n = .causes ∨ ∃ op, n = .entry op

/-- The front axle as it is in `v`, or with the slot that a release in `v` waited for. -/
def AxleFrom (v t : State) : Prop :=
  t.fac = v.fac ∨ v.fac.state = .releaseWait ∧ v.supplyOk = true ∧ t.fac.state = .releaseFill ∧ t.fac.dwell = v.fac.dwell

/-- The front axle stands at what its change of state has given it, with the dwell running. -/
structure Dwells (v t : State) : Prop where
  reacts : Reacts v t
  fac : AxleFrom v t
  dwell : v.fac.dwell ≠ none
  held : v.fac.state ≠ .releaseWait → t.arbiter.count .fac = v.arbiter.count .fac
  unforced : t.fac.state ≠ .engaged → Unforced t
  waits : ∀ n ∈ t.notices, n.AfterRefresh ∨ t.fac.state = .engaged ∧ n.OfEntry

theorem Dwells.running (h : Dwells v t) : t.fac.dwell ≠ none := by
  rcases h.fac with same | ⟨-, -, -, same⟩
  · rw [same]
    exact h.dwell
  · rw [same]
    exact h.dwell

theorem Dwells.drop (h : Dwells v t) (waits : t.notices = before ++ n :: after) :
    Dwells v { t with notices := before ++ after } :=
  ⟨h.reacts.acts ((Acts.refl t).withNotices _), h.fac, h.dwell, h.held, fun state => { h.unforced state with },
    fun m mem => h.waits m (by rw [waits]; exact mem_of_left mem)⟩

theorem AxleFrom.stands (h : AxleFrom v t) (fac : u.fac = t.fac) : AxleFrom v u := by
  rw [AxleFrom, fac]
  exact h

/-- Acts of the gearbox side. -/
theorem Dwells.geared (h : Dwells v t) (acts : Geared t u) (reacts : Reacts t u) : Dwells v u := by
  obtain ⟨side, result⟩ := acts.axle
  have unforced (state : t.fac.state ≠ .engaged) : Unforced u := by
    obtain ⟨run, coupled, driveMode⟩ := h.unforced state
    exact ⟨by rw [side.mode, run], by rw [side.motion, coupled], by rw [side.intake]; exact driveMode⟩
  rcases result with stands | granted
  · refine ⟨h.reacts.trans reacts, h.fac.stands stands.fac, h.dwell, fun waits => stands.held.trans (h.held waits), ?_, ?_⟩
    · rw [stands.fac]
      exact unforced
    · rw [stands.fac, stands.notices]
      exact h.waits
  · have away : t.fac.state ≠ .engaged := by rw [granted.waited]; exact FacState.noConfusion
    have waited : v.fac = t.fac := by
      rcases h.fac with same | ⟨-, -, fills, -⟩
      · exact same.symm
      · exact absurd (fills.symm.trans granted.waited) FacState.noConfusion
    have supply : v.supplyOk = true :=
      (State.supplyOk_same h.reacts.intake h.reacts.tables).symm.trans granted.supply
    refine ⟨h.reacts.trans reacts, .inr ⟨by rw [waited, granted.waited], supply, granted.fills, by rw [granted.dwell, waited]⟩,
      h.dwell, fun waits => absurd (by rw [waited, granted.waited]) waits, fun _ => unforced away, fun n mem => ?_⟩
    rw [granted.notices] at mem
    rcases List.mem_append.1 mem with old | new
    · exact .inl ((h.waits n old).resolve_right fun k => away k.1)
    · exact .inl (.inl (List.mem_singleton.1 new))

/-- A refresh of the Motion Record. -/
theorem Dwells.refreshes (h : Dwells v t) : Dwells v t.refreshMotion := by
  obtain ⟨acts, fac, arbiter, coupled, ns, notices, calm, -⟩ := t.refreshMotion_refreshed
  refine ⟨h.reacts.acts acts, h.fac.stands fac, h.dwell, by rw [arbiter]; exact h.held, ?_, fun n mem => ?_⟩
  · rw [fac]
    intro state
    obtain ⟨run, apart, driveMode⟩ := h.unforced state
    exact ⟨by rw [acts.mode, run], by rw [coupled, apart], by rw [acts.intake]; exact driveMode⟩
  · rw [fac]
    rw [notices] at mem
    rcases List.mem_append.1 mem with old | new
    · exact h.waits n old
    · exact .inl (.inr (calm n new))

/-- A change of the operating state, with the front axle ENGAGED. -/
theorem Dwells.enters (h : Dwells v t) (engaged : t.fac.state = .engaged) (reacts : Reacts t u) (fac : u.fac = t.fac)
    (arbiter : u.arbiter = t.arbiter)
    (notices : u.notices = t.notices ++ (.entry op :: .axle :: if op = .run then [.causes] else [])) : Dwells v u := by
  refine ⟨h.reacts.trans reacts, h.fac.stands fac, h.dwell, by rw [arbiter]; exact h.held,
    fun state => absurd (by rw [fac, engaged]) state, fun n mem => ?_⟩
  rw [fac]
  rw [notices] at mem
  rcases List.mem_append.1 mem with old | new
  · exact h.waits n old
  · rcases List.mem_cons.1 new with rfl | new
    · exact .inr ⟨engaged, .inr ⟨op, rfl⟩⟩
    · rcases List.mem_cons.1 new with rfl | new
      · exact .inl (.inr (.inl rfl))
      · split at new
        · exact .inr ⟨engaged, .inl (List.mem_singleton.1 new)⟩
        · cases new

theorem Dwells.setOp (h : Dwells v t) (engaged : t.fac.state = .engaged) (op : OpState) : Dwells v (t.setOp op) := by
  have only := t.setOp_only op
  exact h.enters engaged (t.setOp_reacts op) (by rw [only]) (by rw [only]) (by rw [only])

theorem State.enterSafeStop_axle (s : State) : s.enterSafeStop.fac = s.fac ∧ s.enterSafeStop.arbiter = s.arbiter ∧
    ∃ op, op ≠ .run ∧ s.enterSafeStop.notices = s.notices ++ [.entry op, .axle] := by
  have latched := State.setOp_only { s with mode := { s.mode with stops := min 4 (s.mode.stops + 1) } } .latched
  have stopped := State.setOp_only { s with mode := { s.mode with stops := min 4 (s.mode.stops + 1) } } .safeStop
  rw [State.enterSafeStop]
  simp only
  split
  · rw [latched]
    exact ⟨rfl, rfl, .latched, OpState.noConfusion, rfl⟩
  · rw [stopped]
    exact ⟨rfl, rfl, .safeStop, OpState.noConfusion, rfl⟩

theorem Dwells.enterSafeStop (h : Dwells v t) (engaged : t.fac.state = .engaged) : Dwells v t.enterSafeStop := by
  obtain ⟨fac, arbiter, op, notRun, notices⟩ := t.enterSafeStop_axle
  exact h.enters engaged t.enterSafeStop_reacts fac arbiter (op := op) (by rw [notices, if_neg notRun])

theorem Dwells.exitTest (h : Dwells v t) : Dwells v t.exitTest := by
  rw [State.exitTest]
  split
  case isTrue leaves =>
    have engaged : t.fac.state = .engaged := Decidable.by_contra fun state =>
      absurd ((h.unforced state).run.symm.trans leaves.1) OpState.noConfusion
    exact h.setOp engaged .run
  case isFalse => exact h

theorem Dwells.causeEval (h : Dwells v t) (engaged : t.fac.state = .engaged) : Dwells v t.causeEval := by
  rw [State.causeEval]
  split
  · split
    · exact h.enterSafeStop engaged
    · split
      · exact h.setOp engaged _
      · exact h
  · split
    · exact h.enterSafeStop engaged
    · split
      · exact h
      · exact h.setOp engaged _
  · exact h.exitTest
  all_goals exact h

theorem Dwells.take (h : Dwells v t) (n : Notice) (known : n.AfterRefresh ∨ t.fac.state = .engaged ∧ n.OfEntry) :
    Dwells v (t.takeNotice n) := by
  rcases known with (rfl | rfl | rfl | ⟨k, rfl⟩) | ⟨engaged, rfl | ⟨op, rfl⟩⟩
  · exact h.refreshes
  · have stands : t.takeNotice .axle = t := State.facEvaluate_dwelling h.running h.unforced
    rw [stands]
    exact h
  · exact h.exitTest
  · exact h.geared (t.takeGear_geared k) (t.takeNotice_reacts _)
  · exact h.causeEval engaged
  · exact h.geared (t.takeEntry_geared op) (t.takeNotice_reacts _)

/-- Through all the events the front axle stands as its change of state has left it. -/
theorem Dwells.settles (h : Dwells v t) : Dwells v t.settled := by
  refine State.settled_takes (P := Dwells v) (fun t m k => ?_) (fun t before n after waits k => ?_) h
  · exact ⟨k.reacts.acts ((Acts.refl t).withFree m), k.fac, k.dwell, k.held, fun state => { k.unforced state with }, k.waits⟩
  · exact (k.drop waits).take n (k.waits n (by rw [waits]; exact List.mem_append_right _ List.mem_cons_self))

end

end Sys2Proof.Machine

/-! ### The front axle timers' commands (R101 to R107) -/

namespace Sys2Proof.Machine

section

variable {s t u v : State} {x : Time}

theorem Dwells.start (dwell : v.fac.dwell ≠ none) (unforced : v.fac.state ≠ .engaged → Unforced v)
    (waits : ∀ n ∈ v.notices, n.AfterRefresh) : Dwells v v :=
  ⟨.refl v, .inl rfl, dwell, fun _ => rfl, unforced, fun n mem => .inl (waits n mem)⟩

/-- Only refreshes wait. -/
theorem refreshes_only {ns : List Notice} (h : ∀ n ∈ ns, n = .refresh) : ∀ n ∈ ns, n.AfterRefresh := fun n mem => .inl (h n mem)

/-! ### An engagement (R105) -/

/-- The front axle after an engagement. -/
def State.engagedFac (s : State) : Fac where
  state := .engaged
  fillKPa := 0
  holdKPa := 0
  pulseTimer := none
  fillTimer := none
  dwell := some (s.now + s.axle.dwellMs * Config.msTicks)
  brakeHold := s.fac.brakeHold
  check := if s.fac.state = .released then none else s.fac.check
  noRelease := if s.fac.state = .released then false else s.fac.noRelease

/-- An engagement has been made, and the refresh it asks for waits. -/
structure EngagedFrom (s t : State) : Prop where
  fac : t.fac = s.engagedFac
  notices : t.notices = s.notices ++ [.refresh]
  now : t.now = s.now

theorem State.facEngaged_from (s : State) : EngagedFrom s s.facEngaged := by
  obtain ⟨now, tables, -, -, -, -, notices, fac⟩ := s.setFac_eq .engaged
  refine ⟨?_, notices, now⟩
  have axle : (s.setFac .engaged).axle = s.axle := congrArg axleTable (State.inUse_of_tables tables .axle)
  simp only [State.facEngaged, State.after, fac, axle, now, State.engagedFac]
  simp

/-- A decision changes nothing of it. -/
theorem EngagedFrom.decides (h : EngagedFrom s t) (a : Arbiter) : EngagedFrom s ({ t with arbiter := a } : State).decideFill := by
  obtain ⟨side, result⟩ := State.decideFill_axle ({ t with arbiter := a } : State)
  have stands := result.resolve_right fun granted => by
    have waited : t.fac.state = .releaseWait := granted.waited
    rw [h.fac] at waited
    cases waited
  exact ⟨stands.fac.trans h.fac, stands.notices.trans h.notices, side.now.trans h.now⟩

theorem State.facEngage_from (away : s.fac.state ≠ .engaged) : EngagedFrom s s.facEngage := by
  rw [State.facEngage]
  split
  · exact absurd ‹_› away
  · exact s.facEngaged_from.decides _
  · exact s.facEngaged_from.decides _
  · exact s.facEngaged_from

/-- All the events leave the engagement as it is. -/
theorem EngagedFrom.settles (h : EngagedFrom s t) (quiet : s.notices = []) :
    t.settled.now = s.now ∧ t.settled.fac = s.engagedFac := by
  have state : t.fac.state = .engaged := by rw [h.fac]; rfl
  have rests : Dwells t t.settled := by
    refine Dwells.settles (.start ?_ (absurd state) (refreshes_only ?_))
    · rw [h.fac]
      exact Option.some_ne_none _
    · rw [h.notices, quiet]
      exact fun n mem => List.mem_singleton.1 mem
  refine ⟨rests.reacts.now.trans h.now, ?_⟩
  rcases rests.fac with same | ⟨waited, -⟩
  · rw [same, h.fac]
  · exact absurd (state.symm.trans waited) FacState.noConfusion

/-! ### A release (R103) -/

/-- The front axle asks for a slot. -/
def State.releaseAsked (s : State) : State :=
  { s.setFac .releaseWait with
    fac := { (s.setFac .releaseWait).fac with dwell := (s.setFac .releaseWait).after (s.setFac .releaseWait).axle.dwellMs }
    arbiter := { (s.setFac .releaseWait).arbiter with facWait := true } }

/-- A release waits, with its refresh, and the dwell runs. -/
structure ReleaseAsked (s u : State) : Prop where
  side : AxleSide s u
  state : u.fac.state = .releaseWait
  dwell : u.fac.dwell = some (s.now + s.axle.dwellMs * Config.msTicks)
  notices : u.notices = s.notices ++ [.refresh]
  facWait : u.arbiter.facWait = true
  shiftWait : u.arbiter.shiftWait = s.arbiter.shiftWait
  free : u.arbiter.count .free = s.arbiter.count .free

theorem State.releaseAsked_asked (s : State) : ReleaseAsked s s.releaseAsked := by
  obtain ⟨now, tables, motion, mode, intake, -, notices, fac⟩ := s.setFac_eq .releaseWait
  have arbiter := (s.setFac_fac .releaseWait).1
  have axle : (s.setFac .releaseWait).axle = s.axle := congrArg axleTable (State.inUse_of_tables tables .axle)
  have state : (s.setFac .releaseWait).fac.state = .releaseWait := by rw [fac]
  have dwell : (s.setFac .releaseWait).after (s.setFac .releaseWait).axle.dwellMs =
      some (s.now + s.axle.dwellMs * Config.msTicks) := by rw [State.after, axle, now]
  rw [State.releaseAsked]
  generalize s.setFac .releaseWait = u at now tables motion mode intake notices arbiter state dwell
  exact ⟨⟨now, motion, mode, intake, tables⟩, state, dwell, notices, rfl, by rw [arbiter], by rw [← arbiter]; rfl⟩

theorem State.facRelease_eq (coupled : s.motion.record.coupled = false) : s.facRelease = s.releaseAsked.decideFill := by
  have motion : (s.setFac .releaseWait).motion.record.coupled = false := by
    rw [(s.setFac_eq .releaseWait).2.2.1]
    exact coupled
  exact if_neg (Bool.eq_false_iff.1 motion)

/-- A release as the supply and the slots allow it. -/
structure ReleasedFrom (s t : State) : Prop where
  now : t.now = s.now
  state : t.fac.state = .releaseWait ∨ t.fac.state = .releaseFill
  refused : ¬(s.clutchHdr.supplyMin : Int) ≤ s.shown supplyPress → t.fac.state = .releaseWait
  granted : (s.clutchHdr.supplyMin : Int) ≤ s.shown supplyPress → s.arbiter.shiftWait = none →
    1 ≤ s.arbiter.count .free → t.fac.state = .releaseFill
  dwell : t.fac.dwell = some (s.now + s.axle.dwellMs * Config.msTicks)

theorem State.supplyOk_iff (s : State) : s.supplyOk = true ↔ (s.clutchHdr.supplyMin : Int) ≤ s.shown supplyPress :=
  decide_eq_true_iff

theorem ReleaseAsked.supplyOk (h : ReleaseAsked s u) : u.supplyOk = s.supplyOk :=
  State.supplyOk_same h.side.intake h.side.tables

/-- The decision that follows the request. -/
theorem ReleaseAsked.decides (h : ReleaseAsked s u) : ReleasedFrom s u.decideFill := by
  obtain ⟨side, result⟩ := u.decideFill_axle
  refine ⟨side.now.trans h.side.now, ?_, fun refused => ?_, fun supplied first free => ?_, ?_⟩
  · rcases result with stands | granted
    · exact .inl (by rw [stands.fac, h.state])
    · exact .inr granted.fills
  · have none : u.decideFill = u := State.decideFill_refused fun supplied =>
      refused (s.supplyOk_iff.1 (h.supplyOk.symm.trans (u.supplyOk_iff.2 supplied)))
    rw [none, h.state]
  · have supplied : (u.clutchHdr.supplyMin : Int) ≤ u.shown supplyPress :=
      u.supplyOk_iff.1 (h.supplyOk.trans (s.supplyOk_iff.2 supplied))
    have first : u.arbiter.shiftWait = none := h.shiftWait.trans first
    rw [State.decideFill_supplied supplied, State.grantShift_none first,
      State.grantFac_served h.facWait (by rw [h.free]; exact free) first h.state]
    exact (State.facGranted_eq _).2.2.1
  · rcases result with stands | granted
    · rw [stands.fac, h.dwell]
    · rw [granted.dwell, h.dwell]

/-- A release in RUN with nothing that forces an engagement: through all the events it stands, or gets its slot. -/
theorem State.facRelease_settles (unforced : Unforced s) (quiet : s.notices = []) : ReleasedFrom s s.facRelease.settled := by
  have asked := s.releaseAsked_asked
  rw [State.facRelease_eq unforced.coupled]
  generalize s.releaseAsked = u at asked
  obtain ⟨side, result⟩ := u.decideFill_axle
  have notices : ∀ n ∈ u.decideFill.notices, n = .refresh := by
    rcases result with stands | granted
    · rw [stands.notices, asked.notices, quiet]
      simp
    · rw [granted.notices, asked.notices, quiet]
      simp
  have supply : u.decideFill.supplyOk = s.supplyOk :=
    (State.supplyOk_same side.intake side.tables).trans asked.supplyOk
  have side := asked.side.trans side
  have decided := asked.decides
  generalize u.decideFill = v at notices supply side decided
  have rests : Dwells v v.settled := by
    refine Dwells.settles (.start ?_ (fun _ => ⟨?_, ?_, ?_⟩) (refreshes_only notices))
    · rw [decided.dwell]
      exact Option.some_ne_none _
    · rw [side.mode, unforced.run]
    · rw [side.motion, unforced.coupled]
    · rw [side.intake]
      exact unforced.driveMode
  have now := rests.reacts.now.trans decided.now
  rcases rests.fac with same | ⟨waited, supplied, fills, dwell⟩
  · exact ⟨now, by rw [same]; exact decided.state, by rw [same]; exact decided.refused, by rw [same]; exact decided.granted,
      by rw [same, decided.dwell]⟩
  · exact ⟨now, .inr fills, fun refused => absurd (s.supplyOk_iff.1 (supply.symm.trans supplied)) refused, fun _ _ _ => fills,
      by rw [dwell, decided.dwell]⟩

/-! ### The demand (R98, R99) -/

theorem State.facDemand_release (h : s.ReleaseDemand) : s.facDemand = .release := by
  unfold State.ReleaseDemand at h
  rw [State.facDemand]
  cases mode : s.intake.record.driveMode with
  | off => rfl
  | on => simp [mode] at h
  | auto =>
    simp only [mode] at h
    simp only [autoDemand]
    rcases h with override | fast | ⟨grips, steers⟩
    · simp [override]
    · simp only [if_pos fast, ite_self]
    · simp only [if_neg grips, if_pos steers, ite_self]

theorem State.facDemand_engage (h : s.EngageDemand) : s.facDemand = .engage := by
  unfold State.EngageDemand at h
  rw [State.facDemand]
  cases mode : s.intake.record.driveMode with
  | off => simp [mode] at h
  | on => rfl
  | auto =>
    simp only [mode] at h
    obtain ⟨override, slow, demand⟩ := h
    simp only [autoDemand, override, Bool.false_eq_true, if_false, if_neg (Int.not_lt.2 slow)]
    split
    · rfl
    · rename_i grips
      obtain ⟨straight, low⟩ := demand.resolve_left grips
      rw [if_neg (Nat.not_le.2 straight), if_pos low]

theorem State.facDemand_keep (noRelease : ¬ s.ReleaseDemand) (noEngage : ¬ s.EngageDemand) : s.facDemand = .keep := by
  unfold State.ReleaseDemand at noRelease
  unfold State.EngageDemand at noEngage
  rw [State.facDemand]
  cases mode : s.intake.record.driveMode with
  | off => simp [mode] at noRelease
  | on => simp [mode] at noEngage
  | auto =>
    simp only [mode, not_or, not_and, Bool.not_eq_true] at noRelease noEngage
    obtain ⟨override, slow, steers⟩ := noRelease
    simp only [autoDemand, override, Bool.false_eq_true, if_false, if_neg slow]
    grind

/-! ### The commands -/

/-- The dwell, or the post-braking hold, has passed: the front axle stands at `fac`. -/
def State.axleTimed (s : State) (x : Time) (fac : Fac) : State := { s.expire (some x) with fac := fac }

theorem exec_axleTimer {c : Instr} {fac : Fac} (reset : s.resetting = none)
    (timer : c = .dwellExpiry ∧ s.fac.dwell = some x ∧ fac = { s.fac with dwell := none } ∨
      c = .brakeHoldExpiry ∧ s.fac.brakeHold = some x ∧ fac = { s.fac with brakeHold := none }) :
    exec c s = .next (s.axleTimed x fac).facEvaluate.settled ∧ fac.state = s.fac.state := by
  rcases timer with ⟨rfl, runs, rfl⟩ | ⟨rfl, runs, rfl⟩
  · refine ⟨(next_expiry (timer := (·.fac.dwell)) reset runs).trans ?_, rfl⟩
    rw [State.dwellPassed, runs]
    rfl
  · refine ⟨(next_expiry (timer := (·.fac.brakeHold)) reset runs).trans ?_, rfl⟩
    rw [State.brakeHoldPassed, runs]
    rfl

/-- What an expiry does that moves nothing. -/
theorem axleTimed_stays {c : Instr} {fac : Fac} (quiet : s.notices = [])
    (run : exec c s = .next (s.axleTimed x fac).facEvaluate.settled)
    (stays : (s.axleTimed x fac).facEvaluate = s.axleTimed x fac) :
    exec c s = .next { s.expire (some x) with fac := fac } := by
  rw [run, stays, State.settled_nil (s := s.axleTimed x fac) quiet]
  rfl

/-- What an expiry does that engages the front axle. -/
theorem axleTimed_engages {c : Instr} {fac : Fac} (quiet : s.notices = [])
    (run : exec c s = .next (s.axleTimed x fac).facEvaluate.settled) (away : fac.state ≠ .engaged)
    (engages : (s.axleTimed x fac).facEvaluate = (s.axleTimed x fac).facEngage) :
    ∃ t, exec c s = .next t ∧ t.now = max s.now x ∧
      t.fac = ⟨.engaged, 0, 0, none, none, some (t.now + s.axle.dwellMs * Config.msTicks), fac.brakeHold,
        if fac.state = .released then none else fac.check, if fac.state = .released then false else fac.noRelease⟩ := by
  obtain ⟨now, engaged⟩ := (State.facEngage_from (s := s.axleTimed x fac) away).settles quiet
  refine ⟨_, run, ?_⟩
  rw [engages, engaged, now]
  exact ⟨rfl, rfl⟩

/-! ### The end of the release fill (R104) -/

/-- The evaluation of the release check touches its own timer and condition, and the fault. -/
theorem State.facCheckEval_only (s : State) : ∃ check noRelease faults,
    s.facCheckEval = { s with fac := { s.fac with check := check, noRelease := noRelease }, faults := faults } := by
  rw [State.facCheckEval]
  split
  · split
    · split
      · exact ⟨_, _, _, rfl⟩
      · exact ⟨_, _, _, rfl⟩
    · exact ⟨_, _, _, rfl⟩
  · exact ⟨_, _, _, rfl⟩

/-- RELEASED, with the slot given back. -/
structure Filled (s t : State) : Prop where
  side : AxleSide s t
  notices : t.notices = s.notices ++ [.refresh]
  state : t.fac.state = .released
  held : t.arbiter.count .fac = 0
  fillTimer : t.fac.fillTimer = none
  pulseTimer : t.fac.pulseTimer = none
  dwell : t.fac.dwell = s.fac.dwell

theorem State.facFilled_filled (s : State) : Filled s s.facFilled := by
  obtain ⟨now, tables, motion, mode, intake, -, notices, fac⟩ := s.setFac_eq .released
  have state : (s.setFac .released).fac.state = .released := by rw [fac]
  have dwell : (s.setFac .released).fac.dwell = s.fac.dwell := by rw [fac]
  rw [State.facFilled]
  simp only
  generalize s.setFac .released = u at now tables motion mode intake notices state dwell ⊢
  have checked := State.facCheckEval_only { u with
    fac := { u.fac with fillKPa := 0, holdKPa := 0, pulseTimer := none, fillTimer := none }
    arbiter := u.arbiter.giveBack .fac }
  have free := u.arbiter.count_giveBack_fac
  obtain ⟨check, noRelease, faults, checked⟩ := checked
  rw [checked]
  have filled : Filled s { u with
      fac := { u.fac with
        fillKPa := 0, holdKPa := 0, pulseTimer := none, fillTimer := none, check := check, noRelease := noRelease }
      arbiter := u.arbiter.giveBack .fac
      faults := faults } := ⟨⟨now, motion, mode, intake, tables⟩, notices, state, free, rfl, rfl, dwell⟩
  generalize ({ u with
    fac := { u.fac with
      fillKPa := 0, holdKPa := 0, pulseTimer := none, fillTimer := none, check := check, noRelease := noRelease }
    arbiter := u.arbiter.giveBack .fac
    faults := faults } : State) = w at filled ⊢
  obtain ⟨side, result⟩ := w.decideFill_axle
  have stands := result.resolve_right fun granted => by
    have both := granted.waited.symm.trans filled.state
    cases both
  exact ⟨filled.side.trans side, stands.notices.trans filled.notices, by rw [stands.fac, filled.state],
    stands.held.trans filled.held, by rw [stands.fac, filled.fillTimer], by rw [stands.fac, filled.pulseTimer],
    by rw [stands.fac, filled.dwell]⟩

theorem Filled.dwells (h : Filled s t) (quiet : s.notices = []) (dwell : s.fac.dwell ≠ none) (unforced : Unforced s) :
    Dwells t t.settled := by
  refine Dwells.settles (.start (by rw [h.dwell]; exact dwell) (fun _ => ⟨?_, ?_, ?_⟩) (refreshes_only ?_))
  · rw [h.side.mode, unforced.run]
  · rw [h.side.motion, unforced.coupled]
  · rw [h.side.intake]
    exact unforced.driveMode
  · rw [h.notices, quiet]
    exact fun n mem => List.mem_singleton.1 mem

end

/-- Settles O48. -/
theorem releaseFillEndsReleased : Obligations.ReleaseFillEndsReleased := by
  intro s ready _
  refine ⟨fun x runs => ?_, fun x runs dwell run coupled driveMode => ?_, fun stopped => ?_, fun stopped => ?_⟩
  · refine (next_expiry (timer := (·.fac.pulseTimer)) ready.1 runs).trans ?_
    rw [State.pulseEnded, runs]
    rfl
  · have filled := (s.expire (some x)).facFilled_filled
    have rests := filled.dwells ready.2 dwell ⟨run, coupled, driveMode⟩
    have fac := rests.fac.resolve_right fun h => absurd (h.1.symm.trans filled.state) FacState.noConfusion
    refine ⟨_, (next_expiry (timer := (·.fac.fillTimer)) ready.1 runs).trans (by rw [runs]), ?_⟩
    refine ⟨rests.reacts.now.trans filled.side.now, by rw [fac, filled.state], ?_, by rw [fac, filled.fillTimer],
      by rw [fac, filled.pulseTimer], by rw [fac, filled.dwell]; rfl, rests.reacts.intake.trans filled.side.intake,
      rests.reacts.tables.trans filled.side.tables⟩
    rw [rests.held (by rw [filled.state]; exact FacState.noConfusion), filled.held]
  · exact next_no_expiry (timer := (·.fac.pulseTimer)) ready.1 stopped
  · exact next_no_expiry (timer := (·.fac.fillTimer)) ready.1 stopped

/-- Settles O49: an evaluation at the expiry, and the events it brings leave the front axle as it has left it. -/
theorem frontAxleTimersBringAnEvaluation : Obligations.FrontAxleTimersBringAnEvaluation := by
  intro s ready forced left supply
  refine ⟨fun c x fac timer => ?_, fun x runs => ?_, next_no_expiry (timer := (·.fac.check)) ready.1⟩
  · obtain ⟨run, state⟩ := exec_axleTimer ready.1 timer
    have evaluated : forced → (s.axleTimed x fac).facEvaluate = (s.axleTimed x fac).facEngage := fun h =>
      State.facEvaluate_forced ((s.axleTimed x fac).facForced_iff.2 h)
    have free : ¬forced → (s.axleTimed x fac).facForced = false := fun h =>
      Bool.eq_false_iff.2 fun k => h ((s.axleTimed x fac).facForced_iff.1 k)
    have unforced : ¬forced → Unforced (s.axleTimed x fac) := fun h =>
      ⟨Decidable.by_contra fun k => h (.inr (.inl k)), Bool.eq_false_iff.2 fun k => h (.inl k), fun k => h (.inr (.inr k))⟩
    have stays := axleTimed_stays ready.2 run
    have engages (away : s.fac.state ≠ .engaged) := axleTimed_engages ready.2 run (by rw [state]; exact away)
    rw [state] at engages
    have held : fac.dwell ≠ none ↔ running (s.axleTimed x fac).fac.dwell = true := Option.isSome_iff_ne_none.symm
    refine ⟨fun h engaged => stays ?_, fun h away => engages away (evaluated h), fun h demand engaged dwell brakeHold => ?_,
      fun h demand kept => stays ?_, fun h demand away dwell => engages away ?_, fun h demand kept => stays ?_,
      fun h noRelease noEngage => stays ?_⟩
    · rw [evaluated h, State.facEngage_engaged (state.trans engaged)]
    · have releases : (s.axleTimed x fac).facEvaluate = (s.axleTimed x fac).facRelease := by
        rw [State.facEvaluate_unforced (free h), State.facDemand_release (s := s.axleTimed x fac) demand]
        exact if_pos ⟨state.trans engaged, by rw [State.axleTimed, dwell]; rfl, by rw [State.axleTimed, brakeHold]; rfl⟩
      have released := State.facRelease_settles (unforced h) ready.2
      rw [← releases] at released
      exact ⟨_, run, released.now, released.state, released.refused, released.granted,
        by rw [released.now]; exact released.dwell⟩
    · rw [State.facEvaluate_unforced (free h), State.facDemand_release (s := s.axleTimed x fac) demand]
      refine if_neg fun ⟨engaged, dwell, brakeHold⟩ => ?_
      rcases kept with away | runs | holds
      · exact away (state.symm.trans engaged)
      · exact Bool.noConfusion (dwell.symm.trans (held.1 runs))
      · exact Bool.noConfusion (brakeHold.symm.trans (Option.isSome_iff_ne_none.2 holds))
    · rw [State.facEvaluate_unforced (free h), State.facDemand_engage (s := s.axleTimed x fac) demand]
      exact if_neg fun runs => held.2 runs dwell
    · rw [State.facEvaluate_unforced (free h), State.facDemand_engage (s := s.axleTimed x fac) demand]
      rcases kept with engaged | dwell
      · simp only [State.facEngage_engaged (s := s.axleTimed x fac) (state.trans engaged), ite_self]
      · exact if_pos (held.1 dwell)
    · rw [State.facEvaluate_unforced (free h), State.facDemand_keep (s := s.axleTimed x fac) noRelease noEngage]
  · refine (next_expiry (timer := (·.fac.check)) ready.1 runs).trans ?_
    rw [State.checkFailed, runs]
    rfl

end Sys2Proof.Machine

/-! ### A clutch step: its time, its frames and its place among the commands (R59, R85, R166) -/

namespace Sys2Proof.Machine

section

variable {s t u v : State} {o : Order}

theorem State.writeMail_v (s : State) {id : MailboxId} (h : id.link = .v) (data : List Byte) : s.writeMail id data = { s with
    mail := s.mail.put id ⟨some data, true⟩
    vLink := { s.vLink with offer := s.vLink.offer.map (·.noteWrite id) } } := by
  rw [State.writeMail_fields, h]
  rfl

/-- What the frames of a step write. -/
def State.framesWritten (s : State) (phase : Nat) : State := { s with
  mail := { s.mail with clutchA := ⟨some (clutchAData s), true⟩, clutchB := ⟨some (clutchBData phase s), true⟩ }
  vLink := { s.vLink with offer := (s.vLink.offer.map (·.noteWrite .clutchA)).map (·.noteWrite .clutchB) }
  neut := s.command 7 == 0 && s.command 8 == 0 && !(s.shift.order.any Order.engaging) }

theorem State.writeClutchFrames_eq (s : State) (phase : Nat) : s.writeClutchFrames phase = s.framesWritten phase := by
  rw [State.writeClutchFrames, State.framesWritten]
  generalize clutchAData s = a, clutchBData phase s = b
  rw [s.writeMail_v rfl a, State.writeMail_v _ rfl b]
  rfl

/-- A clutch step that announces nothing. -/
theorem exec_clutchStep (reset : s.resetting = none) (quiet : s.clutchStep.notices = []) :
    exec .clutchStep s = .next s.clutchStep :=
  (next_unlessReset reset).trans (congrArg Host.Outcome.next (State.settled_nil quiet))

theorem exec_syncTimeout (reset : s.resetting = none) (due : s.syncDue = true) (quiet : s.clutchStep.notices = []) :
    exec .syncTimeout s = .next s.clutchStep :=
  (next_unlessReset reset).trans (congrArg Host.Outcome.next ((if_pos due).trans (State.settled_nil quiet)))

/-! ### The start of a step (R59, R66, R71, R79) -/

/-- The pedal makes no free swap of an order. -/
theorem State.readPedal_low (h : s.shown clutchPedal < 500) : s.readPedal o = o :=
  if_neg fun k => absurd k.2.2.2 (Int.not_le.2 h)

theorem Order.freeNow_bound (h : o.freed = false) : o.freeNow = o :=
  if_neg fun k => Bool.noConfusion (h.symm.trans k.2.1)

/-- An order that is no free swap, at the start of a step. -/
theorem State.stepBegin_eq (pedal : s.shown clutchPedal < 500) (bound : o.freed = false) (phase : o.phase ≠ .prepare) :
    s.stepBegin o = { o with
      duration := min 65535 (o.duration + 1), throttleHeld := o.throttleHeld && decide (100 ≤ s.shown throttle) } := by
  rw [State.stepBegin, State.readPedal_low pedal, Order.freeNow_bound bound]
  exact if_neg phase

theorem State.dumpStep_none (h : o.dumping = none) : s.dumpStep o = o := by
  simp only [State.dumpStep, h]

/-! ### T_sync_max (R70) -/

/-- A swap that runs SYNC, outside the window and at its time limit. -/
structure SyncFails (s : State) (o : Order) : Prop where
  phase : o.phase = .sync
  swap : o.kind.isSwap = true
  merged : o.merged = none
  partEnd : o.partEnd = none
  bound : o.freed = false
  pedal : s.shown clutchPedal < 500
  window : s.clutchHdr.syncWindow < (s.shown outSpeed - (s.shown engSpeed * o.ratioTo).tdiv 4096).natAbs
  time : s.clutchHdr.syncMaxMs / 10 ≤ o.count + 1

/-- The order after its last step of SYNC. -/
def State.syncFailed (s : State) (o : Order) : Order := { o with
  duration := min 65535 (o.duration + 1)
  throttleHeld := o.throttleHeld && decide (100 ≤ s.shown throttle)
  count := o.count + 1
  oncoming := onDrives s (fun p d => p.rise false d.kPa) o.oncoming
  forced := true }

theorem Order.dumping_swap (swap : o.kind.isSwap = true) : o.dumping = o.merged := by
  cases kind : o.kind <;> simp_all [Order.dumping, OrderKind.isSwap]

theorem SyncFails.stepOrder (h : SyncFails s o) : s.stepOrder o = (s.syncFailed o, .phase .lock) := by
  have begun := State.stepBegin_eq h.pedal h.bound (by rw [h.phase]; exact Phase.noConfusion)
  have unsynced : s.synced { o with
      duration := min 65535 (o.duration + 1)
      throttleHeld := o.throttleHeld && decide (100 ≤ s.shown throttle)
      count := o.count + 1 } = false := decide_eq_false (Nat.not_le.2 h.window)
  have runs : s.runPhase { o with
      duration := min 65535 (o.duration + 1)
      throttleHeld := o.throttleHeld && decide (100 ≤ s.shown throttle) } = (s.syncFailed o, .phase .lock) := by
    simp only [h.phase] at unsynced
    simp only [State.runPhase, State.syncFailed, h.phase, unsynced, Bool.false_eq_true, if_false, if_pos h.time]
  have still : (s.syncFailed o).dumping = none := (Order.dumping_swap (o := s.syncFailed o) h.swap).trans h.merged
  simp only [State.stepOrder, begun, runs, State.dumpStep_none still]

theorem SyncFails.endsWith (h : SyncFails s o) : (s.syncFailed o).endsWith (.phase .lock) = none := by
  have still : (s.syncFailed o).dumping = none := (Order.dumping_swap (o := s.syncFailed o) h.swap).trans h.merged
  have swap : (s.syncFailed o).kind.isSwap = true := h.swap
  simp only [Order.endsWith, still, Option.isSome_none, Bool.false_eq_true, false_and, if_false, swap, if_true]
  exact h.partEnd

/-- The faults of the oncoming clutches of an order. -/
def Faults.syncRaised (f : Faults) (ds : List Drive) (x : Timer) : Faults :=
  ds.foldl (fun f d => f.raised .shiftSyncTimeout d.clutch x) f

theorem State.raiseSync_eq (s : State) (o : Order) :
    s.raiseSync o = { s with faults := s.faults.syncRaised o.oncoming (s.after Config.ageMs) } := by
  rw [State.raiseSync, Faults.syncRaised]
  generalize o.oncoming = ds
  induction ds generalizing s with
  | nil => rfl
  | cons d ds ih => exact ih (s.raise .shiftSyncTimeout d.clutch)

/-- New pressures leave the clutches. -/
theorem syncRaised_onDrives (s : State) (f : Profile → Drive → Nat) (ds : List Drive) (g : Faults) (x : Timer) :
    g.syncRaised (onDrives s f ds) x = g.syncRaised ds x := by
  induction ds generalizing g with
  | nil => rfl
  | cons d ds ih => exact ih _

/-- The step goes to LOCK, with the faults raised. -/
theorem SyncFails.runStep (h : SyncFails s o) : ∃ commands, s.runStep o = ({ s with
    shift := { s.shift with
      order := some { s.syncFailed o with phase := .lock, count := 0 }, commands := commands, rolling := s.shift.rolling + 1 }
    faults := s.faults.syncRaised o.oncoming (s.after Config.ageMs) } : State).framesWritten Phase.sync.code := by
  have phase : (s.syncFailed o).phase = .sync := h.phase
  have raised : (s.withOrder (s.syncFailed o)).phaseEnded (s.syncFailed o) (.phase .lock) =
      { s.withOrder (s.syncFailed o) with faults := s.faults.syncRaised o.oncoming (s.after Config.ageMs) } := by
    have faults : s.faults.syncRaised (s.syncFailed o).oncoming (s.after Config.ageMs) =
        s.faults.syncRaised o.oncoming (s.after Config.ageMs) := by
      simp only [State.syncFailed, syncRaised_onDrives]
    simp only [State.phaseEnded, phase]
    refine (if_pos rfl).trans ?_
    rw [State.raiseSync_eq, ← faults]
    rfl
  have notShuttle : ¬((s.syncFailed o).kind = .shuttle ∧ (s.syncFailed o).sub = .dump) := fun k => by
    have swap := h.swap
    rw [show o.kind = .shuttle from k.1] at swap
    cases swap
  rw [State.runStep, h.stepOrder]
  simp only [h.endsWith, raised, State.writeClutchFrames_eq, phase]
  rw [State.orderGoesOn, if_neg notShuttle]
  exact ⟨_, rfl⟩

end

/-- Settles O46. -/
theorem syncTimeoutForcesLock : Obligations.SyncTimeoutForcesLock := by
  intro s o ready order phase swap merged partEnd bound pedal window time
  have fails : SyncFails s o := ⟨phase, swap, merged, partEnd, bound, pedal, window, time⟩
  have due : s.syncDue = true := by
    simp only [State.syncDue, order, fails.stepOrder, phase]
    rfl
  have fails' : SyncFails s.stepTimed o := ⟨phase, swap, merged, partEnd, bound, pedal, window, time⟩
  obtain ⟨commands, step⟩ := fails'.runStep
  have stepped := (State.clutchStep_order order).trans step
  have quiet : s.clutchStep.notices = [] := by
    rw [stepped]
    exact ready.2
  refine ⟨s.clutchStep, { s.stepTimed.syncFailed o with phase := .lock, count := 0 }, exec_syncTimeout ready.1 due quiet, ?_⟩
  rw [stepped]
  exact ⟨rfl, rfl, rfl, rfl, rfl, rfl, rfl, rfl, rfl, rfl, rfl, rfl, rfl, rfl, rfl, rfl, rfl, rfl⟩

end Sys2Proof.Machine

/-! ### A SAFE_STOP cause is taken before the events run out (R94, R170, R172) -/

namespace Sys2Proof.Machine

section

variable {s t u v : State} {n : Notice} {before after : List Notice} {k : MotionNews}

/-! ### How many events can still come

An event weighs itself and the events it can bring. A change of the front axle's state brings a refresh; the front axle
can change so often as its state and its dwell allow. -/

/-- The weight of an event. -/
def Notice.weight : Notice → Nat
  | .motion _ => 10
  | .brake => 5
  | .refresh => 4
  | _ => 1

/-- The events that come before an operating state changes, where no operator frame has been accepted. -/
def Notice.Light : Notice → Prop
  | .motion _ | .refresh | .gear _ | .brake | .supply | .axle | .causes | .exit => True
  | .entry _ | .operator _ | .hitch _ | .headlandOut | .headlandIn _ _ => False

/-- The refreshes that the front axle can still bring, by weight. -/
def Fac.reserve (f : Fac) : Nat :=
  match f.state with
  | .engaged => if running f.dwell then 0 else 12
  | .releaseWait => 8
  | .releaseFill | .released => 4

/-- What waits, and what the front axle can still bring. -/
def State.load (s : State) : Nat := (s.notices.map Notice.weight).sum + s.fac.reserve

theorem Fac.reserve_le (f : Fac) : f.reserve ≤ 12 := by
  rw [Fac.reserve]
  split
  · split <;> omega
  all_goals omega

/-- Events of these kinds have been added, and the load is greater by `w` at most. -/
def Adds (s t : State) (w : Nat) : Prop :=
  ∃ ns, t.notices = s.notices ++ ns ∧ (∀ n ∈ ns, n.Light) ∧ (ns.map Notice.weight).sum + t.fac.reserve ≤ s.fac.reserve + w

theorem Adds.load {w : Nat} (h : Adds s t w) : t.load ≤ s.load + w := by
  obtain ⟨ns, notices, -, weight⟩ := h
  rw [State.load, State.load, notices, List.map_append, List.sum_append]
  omega

theorem Adds.light {w : Nat} (h : Adds s t w) (light : ∀ n ∈ s.notices, n.Light) : ∀ n ∈ t.notices, n.Light := by
  obtain ⟨ns, notices, more, -⟩ := h
  rw [notices]
  exact fun n mem => (List.mem_append.1 mem).elim (light n) (more n)

theorem Adds.kept {w : Nat} (h : Adds s t w) (mem : n ∈ s.notices) : n ∈ t.notices := by
  obtain ⟨ns, notices, -, -⟩ := h
  rw [notices]
  exact List.mem_append_left ns mem

/-- Nothing is added. -/
theorem Adds.none (notices : t.notices = s.notices) (fac : t.fac.reserve ≤ s.fac.reserve) (w : Nat) : Adds s t w :=
  ⟨[], by rw [notices, List.append_nil], by simp, by simp; omega⟩

/-- A refresh is added. -/
theorem Adds.refresh {w : Nat} (notices : t.notices = s.notices ++ [.refresh]) (fac : t.fac.reserve + 4 ≤ s.fac.reserve + w) :
    Adds s t w :=
  ⟨[.refresh], notices, by simp [Notice.Light], by simp [Notice.weight]; omega⟩

/-! ### The load of each event -/

theorem AxleStands.adds (h : AxleStands s t) (w : Nat) : Adds s t w := .none h.notices (Nat.le_of_eq (congrArg Fac.reserve h.fac)) w

theorem AxleGranted.adds (h : AxleGranted s t) (w : Nat) : Adds s t w := by
  refine .refresh h.notices ?_
  simp only [Fac.reserve, h.waited, h.fills]
  omega

theorem Geared.adds (h : Geared s t) (w : Nat) : Adds s t w := h.axle.2.elim (·.adds w) (·.adds w)

theorem State.decideFill_adds (s : State) (w : Nat) : Adds s s.decideFill w := s.decideFill_geared.adds w

theorem EngagedFrom.reserve (h : EngagedFrom s t) : t.fac.reserve = 0 := by
  rw [h.fac]
  rfl

theorem State.facEngage_adds (s : State) : Adds s s.facEngage 0 := by
  by_cases engaged : s.fac.state = .engaged
  · rw [State.facEngage_engaged engaged]
    exact .none rfl (Nat.le_refl _) 0
  · have from' := State.facEngage_from engaged
    refine .refresh from'.notices ?_
    rw [from'.reserve, Fac.reserve]
    split
    · exact absurd ‹_› engaged
    all_goals omega

theorem State.facRelease_adds (coupled : s.motion.record.coupled = false) (engaged : s.fac.state = .engaged)
    (dwell : running s.fac.dwell = false) : Adds s s.facRelease 0 := by
  have asked := s.releaseAsked_asked
  rw [State.facRelease_eq coupled]
  generalize s.releaseAsked = u at asked
  have before : s.fac.reserve = 12 := by simp [Fac.reserve, engaged, dwell]
  have waits : u.fac.reserve = 8 := by simp [Fac.reserve, asked.state]
  rcases u.decideFill_axle.2 with stands | granted
  · refine .refresh (stands.notices.trans asked.notices) ?_
    have fac := congrArg Fac.reserve stands.fac
    omega
  · have fills : u.decideFill.fac.reserve = 4 := by simp [Fac.reserve, granted.fills]
    refine ⟨[.refresh, .refresh], ?_, by simp [Notice.Light], ?_⟩
    · rw [granted.notices, asked.notices, List.append_assoc]
      rfl
    · rw [fills, before]
      exact Nat.le_refl 12

theorem State.facEvaluate_adds (s : State) : Adds s s.facEvaluate 0 := by
  cases forced : s.facForced with
  | true =>
    rw [State.facEvaluate_forced forced]
    exact s.facEngage_adds
  | false =>
    rw [State.facEvaluate_unforced forced]
    cases s.facDemand with
    | keep => exact .none rfl (Nat.le_refl _) 0
    | engage =>
      simp only
      split
      · exact .none rfl (Nat.le_refl _) 0
      · exact s.facEngage_adds
    | release =>
      simp only
      split
      next free =>
        have coupled : s.motion.record.coupled = false := Bool.eq_false_iff.2 fun h =>
          Bool.eq_false_iff.1 forced (s.facForced_iff.2 (.inl h))
        exact State.facRelease_adds coupled free.1 free.2.1
      · exact .none rfl (Nat.le_refl _) 0

theorem State.arbiterBrakeStart_adds (s : State) : Adds s s.arbiterBrakeStart 4 := by
  have engages (a : Arbiter) : Adds s ({ s with arbiter := a } : State).facEngaged.decideFill 4 := by
    have from' := (State.facEngaged_from ({ s with arbiter := a } : State)).decides
      ({ s with arbiter := a } : State).facEngaged.arbiter
    exact .refresh from'.notices (by rw [from'.reserve]; omega)
  rw [State.arbiterBrakeStart]
  split
  · exact engages _
  · split
    · exact engages _
    · exact .none rfl (Nat.le_refl _) 4

/-- The events of an update of the Motion Record weigh 8 at most. -/
theorem MotionNews.notices_light (k : MotionNews) : (∀ n ∈ k.notices, n.Light) ∧ (k.notices.map Notice.weight).sum ≤ 8 := by
  obtain ⟨changed, standstillChanged, brakeStart, brakeEnd⟩ := k
  cases changed <;> cases standstillChanged <;> cases brakeStart <;> simp [MotionNews.notices, Notice.Light, Notice.weight]

theorem State.announceMotion_adds (k : MotionNews) (s : State) : Adds s (s.announceMotion k) 8 := by
  obtain ⟨light, weight⟩ := k.notices_light
  refine ⟨k.notices, rfl, light, ?_⟩
  have same : (s.announceMotion k).fac.reserve = s.fac.reserve := rfl
  omega

theorem State.motionChanged_adds (before : MotionRecord) (recomputed : Bool) (s : State) :
    Adds s (s.motionChanged before recomputed) 8 := by
  rw [State.motionChanged]
  simp only [State.onlyIf]
  split
  · exact s.announceMotion_adds _
  · exact .none rfl (Nat.le_refl _) 8

/-- A part of an update, done or not, writes the motion block alone. -/
theorem State.onlyIf_motion {f : State → State} (writes : ∀ u, ∃ m, f u = { u with motion := m }) (c : Bool) (s : State) :
    ∃ m, s.onlyIf c f = { s with motion := m } := by
  cases c with
  | false => exact ⟨s.motion, rfl⟩
  | true => exact writes s

/-- The Motion Estimator's part writes the motion block alone. -/
theorem State.motionUpdate_only (n : SlotNews) (s : State) : ∃ m, s.motionUpdate n = { s with motion := m } := by
  rw [State.motionUpdate]
  obtain ⟨m₁, recomputed⟩ := State.onlyIf_motion (f := State.recompute n.full) (fun _ => ⟨_, rfl⟩) n.recomputes s
  obtain ⟨m₂, stood⟩ := State.onlyIf_motion (f := State.evalStandstill) (fun u => ⟨_, u.evalStandstill_only⟩)
    (n.recomputes || n.any outSpeed) { s with motion := m₁ }
  obtain ⟨m₃, coupled⟩ := State.onlyIf_motion (f := State.evalCoupled) (fun _ => ⟨_, rfl⟩)
    (n.any brakeL || n.any brakeR) { s with motion := m₂ }
  exact ⟨m₃, by simp only [recomputed, stood, coupled]⟩

theorem State.motionTakes_adds (n : SlotNews) (s : State) : Adds s (s.motionTakes n) 8 := by
  obtain ⟨m, only⟩ := s.motionUpdate_only n
  rw [State.motionTakes, only]
  exact State.motionChanged_adds s.motion.record n.recomputes { s with motion := m }

theorem State.refreshMotion_adds (s : State) : Adds s s.refreshMotion 3 := by
  obtain ⟨-, fac, -, -, ns, notices, calm, few⟩ := s.refreshMotion_refreshed
  have light : ∀ n ∈ ns, n.Light ∧ n.weight = 1 := fun n mem => by
    rcases calm n mem with rfl | rfl | ⟨k, rfl⟩ <;> exact ⟨trivial, rfl⟩
  refine ⟨ns, notices, fun n mem => (light n mem).1, ?_⟩
  have weight : (ns.map Notice.weight).sum ≤ ns.length := by
    have one : ns.map Notice.weight = ns.map fun _ => 1 := List.map_congr_left fun n mem => (light n mem).2
    exact Nat.le_of_eq (by rw [one, List.map_const', List.sum_replicate_nat, Nat.mul_one])
  rw [fac]
  omega

/-! ### Until a cause is taken -/

/-- The drive still stands in the operating state in which a SAFE_STOP cause has appeared. -/
structure Driving (v t : State) : Prop where
  acts : Acts v t
  op : v.mode.op = .run ∨ v.mode.op = .degraded
  cause : v.safeStopCause = true
  light : ∀ n ∈ t.notices, n.Light

theorem Driving.exits (h : Driving v t) : t.exitTest = t := by
  refine if_neg fun leaves => ?_
  have op := leaves.1
  rw [h.acts.mode] at op
  rcases h.op with run | degraded
  · rw [run] at op
    cases op
  · rw [degraded] at op
    cases op

/-- Each light event but the evaluation of the causes brings less than it weighs. -/
theorem Driving.adds (h : Driving v t) (light : n.Light) (other : n ≠ .causes) :
    Adds t (t.takeNotice n) (n.weight - 1) := by
  cases n with
  | motion n => exact (t.motionTakes_adds n).imp fun _ ⟨notices, light, weight⟩ => ⟨notices, light, 
      Nat.le_trans weight (by simp [Notice.weight])⟩
  | refresh => exact t.refreshMotion_adds
  | gear k => exact (t.takeGear_geared k).adds 0
  | brake => exact t.arbiterBrakeStart_adds
  | supply => exact t.decideFill_adds 0
  | axle => exact t.facEvaluate_adds
  | causes => exact absurd rfl other
  | exit =>
    have stays : t.takeNotice .exit = t := h.exits
    rw [stays]
    exact .none rfl (Nat.le_refl _) 0
  | entry | operator | hitch | headlandOut | headlandIn => cases light

theorem Driving.take (h : Driving v t) (waits : t.notices = before ++ n :: after) (other : n ≠ .causes) :
    Driving v (({ t with notices := before ++ after } : State).takeNotice n) ∧
      (({ t with notices := before ++ after } : State).takeNotice n).load + 1 ≤ t.load ∧
      (.causes ∈ t.notices → .causes ∈ (({ t with notices := before ++ after } : State).takeNotice n).notices) := by
  have left : Driving v { t with notices := before ++ after } :=
    ⟨h.acts.trans ((Acts.refl t).withNotices _), h.op, h.cause, fun m mem => h.light m (by rw [waits]; exact mem_of_left mem)⟩
  have light : n.Light := h.light n (by rw [waits]; exact List.mem_append_right _ List.mem_cons_self)
  have adds := left.adds light other
  have load : t.load = ({ t with notices := before ++ after } : State).load + n.weight := by
    simp only [State.load, waits, List.map_append, List.map_cons, List.sum_append, List.sum_cons]
    omega
  have heavy : 1 ≤ n.weight := by cases n <;> simp [Notice.weight]
  have less := adds.load
  refine ⟨⟨left.acts.trans ?_, h.op, h.cause, adds.light left.light⟩, by omega, fun mem => adds.kept ?_⟩
  · exact State.takeNotice_acts (.refl _) n (fun causes => absurd causes other) fun _ => left.exits
  · rw [waits] at mem
    rcases List.mem_append.1 mem with first | last
    · exact List.mem_append_left _ first
    · exact List.mem_append_right _ ((List.mem_cons.1 last).resolve_left fun same => other same.symm)

/-! ### And after -/

/-- SAFE_STOP, or LATCHED, has been entered. -/
structure Halted (v t : State) : Prop where
  reacts : Reacts v t
  mode : t.mode = { v.mode with
    stops := min 4 (v.mode.stops + 1)
    op := if min 4 (v.mode.stops + 1) = 4 then .latched else .safeStop
    runTimer := none }
  cause : v.safeStopCause = true
  fault : min 4 (v.mode.stops + 1) = 4 → v.faults.Raises .safeStopLatched 0 t.faults

theorem Halted.parked (h : Halted v t) : t.Parked := by
  have cause : t.safeStopCause = true := h.reacts.causes.1.trans h.cause
  have op : t.mode.op = if min 4 (v.mode.stops + 1) = 4 then .latched else .safeStop := by rw [h.mode]
  split at op
  · exact .inr (.inr (.inl op))
  · exact .inr (.inr (.inr (.inl ⟨op, cause⟩)))

theorem Halted.acts (h : Halted v t) (k : Acts t u) : Halted v u := by
  refine ⟨h.reacts.acts k, k.mode.trans h.mode, h.cause, fun four => ?_⟩
  obtain ⟨m, x, moves, stands⟩ := h.fault four
  exact ⟨m, x, moves, stands.trans (k.faults.holds 0 rfl)⟩

theorem Halted.take (h : Halted v t) (n : Notice) : Halted v (t.takeNotice n) :=
  h.acts (State.takeNotice_acts (.refl t) n (fun _ => h.parked.causeEval) fun _ => h.parked.exitTest)

theorem Driving.halts (h : Driving v t) : Halted v t.causeEval := by
  have cause : t.safeStopCause = true := h.acts.reacts.causes.1.trans h.cause
  have enters : t.causeEval = t.enterSafeStop := by
    have op : t.mode.op = .run ∨ t.mode.op = .degraded := by rw [h.acts.mode]; exact h.op
    rcases op with run | degraded
    · simp only [State.causeEval, run, cause, if_true]
    · simp only [State.causeEval, degraded, cause, if_true]
  obtain ⟨mode, fault⟩ := t.enterSafeStop_mode
  rw [h.acts.mode] at mode fault
  rw [enters]
  refine ⟨h.acts.reacts.trans t.enterSafeStop_reacts, mode, h.cause, fun four => ?_⟩
  obtain ⟨m, x, moves, stands⟩ := fault four
  exact ⟨m, x, (h.acts.faults.mono fun _ _ _ => trivial).trans moves, stands⟩

/-- In any order of the events the cause is taken. -/
theorem Driving.orders {fuel : Nat} (order : Ordered fuel t u) (h : Driving v t) (waits : .causes ∈ t.notices)
    (enough : t.load ≤ fuel) : Halted v u := by
  induction order with
  | done empty =>
    rw [empty] at waits
    cases waits
  | out s =>
    obtain ⟨before, after, split⟩ := List.append_of_mem waits
    have weight : 1 ≤ s.load := by
      simp only [State.load, split, List.map_append, List.map_cons, List.sum_append, List.sum_cons, Notice.weight]
      omega
    omega
  | @take fuel s t before after n split first rest ih =>
    by_cases causes : n = .causes
    · subst causes
      have left : Driving v { s with notices := before ++ after } := ⟨h.acts.trans ((Acts.refl s).withNotices _), h.op, h.cause,
        fun m mem => h.light m (by rw [split]; exact mem_of_left mem)⟩
      exact rest.keeps (fun t before n after _ k => (k.acts ((Acts.refl t).withNotices _)).take n) left.halts
    · obtain ⟨driving, less, kept⟩ := h.take split causes
      exact ih driving (kept waits) (by omega)

theorem Driving.haltsSettled (h : Driving v t) (waits : .causes ∈ t.notices) (load : t.load ≤ Config.settleFuel) :
    Halted v t.settled :=
  State.settled_of_orders (fun t m k => k.acts ((Acts.refl t).withFree m)) fun _ order => h.orders order waits load

/-- An entry, seen from the state before the command. -/
theorem Halted.stops (h : Halted v t) (mode : v.mode.stops = s.mode.stops) (faults : s.faults.Moves (fun _ _ => True) v.faults) :
    Stops s t := by
  refine ⟨by rw [h.mode, mode], by rw [h.mode], by rw [h.mode], fun latched => ?_⟩
  have four : min 4 (v.mode.stops + 1) = 4 := Decidable.by_contra fun no => by
    rw [h.mode] at latched
    simp [no] at latched
  obtain ⟨m, x, moves, stands⟩ := h.fault four
  exact ⟨m, x, faults.trans moves, stands⟩

end

end Sys2Proof.Machine

/-! ### SAFE_STOP causes (R160, R170, R172) -/

namespace Sys2Proof.Machine

section

variable {s t u v : State} {i : Fin 16} {x : Time}

/-! ### A cause evaluation that waits alone -/

theorem Driving.start (op : v.mode.op = .run ∨ v.mode.op = .degraded) (cause : v.safeStopCause = true)
    (light : ∀ n ∈ v.notices, n.Light) : Driving v v := ⟨.refl v, op, cause, light⟩

theorem haltsAtOnce (op : v.mode.op = .run ∨ v.mode.op = .degraded) (cause : v.safeStopCause = true)
    (waits : v.notices = [.causes]) : Halted v v.settled := by
  refine (Driving.start op cause ?_).haltsSettled ?_ ?_
  · rw [waits]
    simp [Notice.Light]
  · rw [waits]
    exact List.mem_singleton.2 rfl
  · have reserve := v.fac.reserve_le
    have fuel : 13 ≤ Config.settleFuel := by decide
    rw [State.load, waits]
    simp only [List.map_cons, List.map_nil, List.sum_cons, List.sum_nil, Notice.weight]
    omega

/-! ### BUS_OFF for 500 ms (R170) -/

/-- The bus-off cause is present. -/
def State.busOffFound (s : State) (x : Time) : State :=
  { s.expire (some x) with
    mode := { s.mode with busOffTimer := none, busOffCause := true }, notices := s.notices ++ [.causes] }

theorem exec_busOffTimerExpiry (reset : s.resetting = none) (runs : s.mode.busOffTimer = some x) :
    exec .busOffTimerExpiry s = .next (s.busOffFound x).settled := by
  refine (next_expiry (timer := (·.mode.busOffTimer)) reset runs).trans ?_
  rw [State.busOffPassed, runs]
  rfl

theorem State.busOffFound_cause (s : State) (x : Time) : (s.busOffFound x).safeStopCause = true := by
  simp [State.safeStopCause, State.busOffFound]

/-! ### BRAKE_L and BRAKE_R (R13, R14, R170) -/

theorem State.safeStopCause_brakes (left : (s.slot brakeL).state = .substituted) (right : (s.slot brakeR).state = .substituted) :
    s.safeStopCause = true := by
  simp [State.safeStopCause, left, right]

/-- Nothing but the trailer and the fault list answers the loss at once. -/
theorem lostBrake_announced (brake : i = brakeL ∨ i = brakeR) (s : State) :
    s.announceSlots ⟨[], [], [i]⟩ = s.trailerEvaluate.announceAll [.motion ⟨[], [], [i]⟩, .causes] := by
  rcases brake with rfl | rfl <;> rfl

/-- The slot that has been lost and announced. -/
theorem State.slotLost_halts (ready : s.Ready) (op : s.mode.op = .run ∨ s.mode.op = .degraded)
    (both : i = brakeL ∧ (s.slot brakeR).state = .substituted ∨ i = brakeR ∧ (s.slot brakeL).state = .substituted) :
    Stops s ((s.slotLost i).announceSlots ⟨[], [], [i]⟩).settled := by
  have brake : i = brakeL ∨ i = brakeR := both.imp And.left And.left
  have passed := s.slotLost_passed i
  have lost : (s.slotLost i).safeStopCause = true := by
    rcases both with ⟨rfl, right⟩ | ⟨rfl, left⟩
    · exact State.safeStopCause_brakes (by rw [passed.slot]) (by rw [passed.others brakeR (by decide), right])
    · exact State.safeStopCause_brakes (by rw [passed.others brakeL (by decide), left]) (by rw [passed.slot])
  have acts := State.announceSlots_acts (.refl (s.slotLost i)) ⟨[], [], [i]⟩
  have notices : ((s.slotLost i).announceSlots ⟨[], [], [i]⟩).notices = [.motion ⟨[], [], [i]⟩, .causes] := by
    rw [lostBrake_announced brake]
    show s.notices ++ _ = _
    rw [ready.2]
    rfl
  have mode : (s.slotLost i).mode = s.mode := rfl
  have faults : s.faults.Moves (fun _ _ => True) (s.slotLost i).faults := .raised .start _ _ _
  generalize s.slotLost i = u at lost acts notices mode faults
  generalize u.announceSlots ⟨[], [], [i]⟩ = v at acts notices
  have driving : Driving v v := .start (by rw [acts.mode, mode]; exact op) (acts.reacts.causes.1.trans lost) (by
    rw [notices]
    simp [Notice.Light])
  refine (driving.haltsSettled ?_ ?_).stops (by rw [acts.mode, mode]) (faults.trans (acts.faults.mono fun _ _ _ => trivial))
  · rw [notices]
    simp
  · have reserve := v.fac.reserve_le
    have fuel : 23 ≤ Config.settleFuel := by decide
    rw [State.load, notices]
    simp only [List.map_cons, List.map_nil, List.sum_cons, List.sum_nil, Notice.weight]
    omega

/-- The command that loses a slot. -/
theorem exec_losesSlot {c : Instr} (reset : s.resetting = none)
    (loses : c = .slotTimeout i ∧ ((s.slot i).state = .waiting ∨
      (s.slot i).state = .fresh ∧ holdMsOf (s.inUse .slotTable) i = 0) ∨ c = .slotHoldExpiry i ∧ (s.slot i).state = .held) :
    exec c s = .next ((s.slotLost i).announceSlots ⟨[], [], [i]⟩).settled := by
  rcases loses with ⟨rfl, state⟩ | ⟨rfl, held⟩
  · rw [next_slotTimeout reset (state.symm.imp And.left id), State.slotTimedOut_lost]
    rintro ⟨fresh, hold⟩
    rcases state with waiting | ⟨-, zero⟩
    · rw [waiting] at fresh
      cases fresh
    · omega
  · exact next_slotHoldExpiry reset held

/-! ### The V-link falls silent (R160, R170) -/

theorem State.changeLink_silence {c : LinkCtl} (error : s.vLink.error = c.error) (silence : s.vLink.silence ≠ c.silence) :
    s.changeLink .v c = (s.setLink .v c).announce .causes := by
  have news : (s.setLink .v c).busOffNews s.vLink.error c.error = s.setLink .v c :=
    (if_neg fun k => k.1 (error.trans k.2)).trans (if_neg fun k => k.2 (error.symm.trans k.1))
  simp only [State.changeLink, State.link, news]
  exact if_pos (.inr silence)

/-- FAILED silence of the V-link is announced to the Mode Controller, and to no other block. -/
theorem State.silentAt_causes (s : State) (x : Time) (differs : s.vLink.silence ≠ .failed) :
    (s.silentAt x .v .failed .linkFailed).notices = s.notices ++ [.causes] ∧
      (s.silentAt x .v .failed .linkFailed).mode = s.mode ∧ (s.silentAt x .v .failed .linkFailed).safeStopCause = true := by
  have changed : s.silentAt x .v .failed .linkFailed =
      (((s.expire (some x)).setLink .v { s.vLink with silence := .failed }).announce .causes).raise .linkFailed 1 := by
    rw [State.silentAt]
    exact congrArg (State.raiseLink .linkFailed .v) (State.changeLink_silence (s := s.expire (some x)) rfl differs)
  rw [changed]
  exact ⟨rfl, rfl, by simp [State.safeStopCause, State.raise, State.announce, State.announceAll, State.setLink]⟩

theorem State.linkFailed_halts (ready : s.Ready) {t0 : Time} (suspect : s.vLink.silence = .suspect)
    (runs : s.vLink.silenceStart = some t0) (op : s.mode.op = .run ∨ s.mode.op = .degraded) :
    Stops s (s.linkFailed .v).settled := by
  have past : s.linkSuspect .v = s := State.linkSuspect_past (by
    show s.vLink.silence ≠ .ok
    rw [suspect]
    nofun)
  have failed : s.linkFailed .v = s.silentAt (t0 + 1000 * Config.msTicks) .v .failed .linkFailed := by
    rw [State.linkFailed_of (t0 := t0) (by rw [past]; exact suspect) (by rw [past]; exact runs), past]
  obtain ⟨notices, mode, cause⟩ := s.silentAt_causes (t0 + 1000 * Config.msTicks) (by rw [suspect]; nofun)
  obtain ⟨-, -, -, -, faults, -⟩ := s.silentAt_fields (t0 + 1000 * Config.msTicks) .v .failed .linkFailed
  rw [failed]
  refine (haltsAtOnce (by rw [mode]; exact op) cause (by rw [notices, ready.2]; rfl)).stops (by rw [mode]) ?_
  rw [faults]
  exact .raised .start _ _ _

/-! ### An entry into an operating state (R42, R43, R122, R167 to R172) -/

theorem entryLaw : EntryLaw := by
  intro s op m e h
  have writes : h = { e with hitch := h.hitch } := by
    have entered := State.hitchEnters_only e s.mode.op op
    exact entered
  refine ⟨?_, by cases op <;> rfl, rfl, rfl, fun latched => ?_⟩
  · have notices : h.notices = s.notices := by rw [writes]
    show h.trailerEvaluate.announceAll _ = _
    rw [← notices]
    rfl
  · rw [s.enterSafeStop_mode.1] at latched
    have four : min 4 (s.mode.stops + 1) = 4 := Decidable.by_contra fun no => by simp [no] at latched
    have only := State.setOp_only { s with mode := { s.mode with stops := min 4 (s.mode.stops + 1) } } .latched
    rw [State.enterSafeStop]
    simp only [if_pos four]
    rw [only]
    rfl

end

/-- Settles O39: an entry follows the events whatever their order, for no more than the fuel of them can come before. -/
theorem safeStopCauseStopsTheDrive : Obligations.SafeStopCauseStopsTheDrive := by
  refine ⟨fun s ready => ⟨fun x runs => ?_, fun t0 suspect runs op => ?_, fun c i both loses op => ?_⟩, entryLaw⟩
  · have events := (s.busOffFound x).settled_reacts
    have mode := events.mode
    refine ⟨_, exec_busOffTimerExpiry ready.1 runs, events.now, by rw [mode]; rfl, by rw [mode]; rfl, by rw [mode]; rfl,
      events.intake, events.tables, events.vLink, fun op => ?_, fun op => ?_⟩
    · have waits : (s.busOffFound x).notices = [.causes] := by
        rw [State.busOffFound, ready.2]
        rfl
      exact (haltsAtOnce (v := s.busOffFound x) op (s.busOffFound_cause x) waits).stops rfl .start
    · have parked : (s.busOffFound x).Parked := by
        rcases op with h | h | h
        · exact .inl h
        · exact .inr (.inl h)
        · exact .inr (.inr (.inl h))
      rw [parked.settled.mode]
      rfl
  · exact ⟨_, next_unlessReset ready.1, State.linkFailed_halts ready suspect runs op⟩
  · exact ⟨_, exec_losesSlot ready.1 loses, State.slotLost_halts ready op both⟩

end Sys2Proof.Machine

/-! ### The Motion Record, its updates and the announcements of slots (chapter 2; R8, R28, R35) -/

namespace Sys2Proof.Machine

section

variable {s t : State} {i : Fin 16}

/-! ### One recomputation (R23 to R27) -/

theorem chooseSource_radar (front rear released : Bool) : chooseSource true front rear released = .radar := rfl

theorem chooseSource_freed (rear : Bool) : chooseSource false true rear true = .frontFree := by cases rear <;> rfl

theorem chooseSource_axleMin : chooseSource false true true false = .axleMin := rfl

theorem chooseSource_rearOnly (released : Bool) : chooseSource false false true released = .rearOnly := by
  cases released <;> rfl

theorem chooseSource_none {front released : Bool} (h : ¬(released = true ∧ front = true)) :
    chooseSource false front false released = .none := by
  cases front <;> cases released <;> simp_all [chooseSource]

theorem slipValidOf_iff (src : SpeedSource) (rear : Bool) :
    slipValidOf src rear = true ↔ rear = true ∧ (src = .radar ∨ src = .frontFree ∨ src = .axleMin) := by
  cases src <;> simp [slipValidOf]

theorem slipOf_low {valid : Bool} {vw vg : Int} (h : vw < 50 ∨ valid = false) : slipOf valid vw vg = 0 := if_pos h

theorem slipOf_valid {vw vg : Int} (h : 50 ≤ vw) :
    slipOf true vw vg = max (-1000) (min 1000 (((vw - vg) * 1000).tdiv vw)) := by
  rw [slipOf, if_neg (by simp; omega)]
  rfl

/-- The record after a recomputation. -/
def State.recomputed (s : State) (full : Bool) : MotionRecord :=
  let src := chooseSource (s.usable radar) (s.usable wheelFront) (s.usable wheelRear) (s.fac.state == .released)
  let vg := speedOf src (s.shown radar) (s.shown wheelFront) (s.shown wheelRear)
  let valid := slipValidOf src (s.usable wheelRear)
  let slip := slipOf valid (s.shown wheelRear) vg
  { s.motion.record with
    vg := vg, source := src, vw := s.shown wheelRear, slip := slip, slipValid := valid
    slipF := filterOf full valid s.motion.record.slipF slip }

theorem State.recompute_eq (s : State) (full : Bool) :
    s.recompute full = { s with motion := { s.motion with record := s.recomputed full } } := rfl

theorem State.recomputed_vg (s : State) (full : Bool) : (s.recomputed full).vg =
    speedOf (s.recomputed full).source (s.shown radar) (s.shown wheelFront) (s.shown wheelRear) := rfl

theorem State.recomputed_slip (s : State) (full : Bool) : (s.recomputed full).slip =
    slipOf (s.recomputed full).slipValid (s.recomputed full).vw (s.recomputed full).vg := rfl

theorem State.recomputed_slipF (s : State) (full : Bool) : (s.recomputed full).slipF =
    filterOf full (s.recomputed full).slipValid s.motion.record.slipF (s.recomputed full).slip := rfl

/-! ### Coupled braking (R33) -/

theorem coupledAfter_begins {l r : Int} {p : Nat} : coupledAfter false l r p = true ↔ (p : Int) ≤ l ∧ (p : Int) ≤ r := by
  simp only [coupledAfter, Bool.false_eq_true, if_false, Bool.and_eq_true, decide_eq_true_eq]

theorem coupledAfter_ends {l r : Int} {p : Nat} :
    coupledAfter true l r p = false ↔ l < (p * 3 / 4 : Nat) ∨ r < (p * 3 / 4 : Nat) := by
  rw [coupledAfter, if_pos rfl, Bool.and_eq_false_iff]
  exact or_congr (decide_eq_false_iff_not.trans Int.not_le) (decide_eq_false_iff_not.trans Int.not_le)

theorem coupledLaw : CoupledLaw := by
  intro s p
  refine ⟨_, rfl, fun was => ?_, fun was => ?_⟩
  · rw [was]
    exact coupledAfter_begins
  · rw [was]
    exact coupledAfter_ends

/-! ### Updates of the Motion Record (R28, R35) -/

/-- A part that is done where a condition holds. -/
theorem State.onlyIf_if {c : Bool} {p : Prop} [Decidable p] (h : c = true ↔ p) (s : State) (f : State → State) :
    s.onlyIf c f = if p then f s else s := ite_of_iff h

theorem State.exitTest_passes (h : s.mode.op = .safeStop ∧ s.motion.record.standstill = true ∧
    s.intake.record.direction = .n ∧ ¬ SafeStopCause s) : s.exitTest = s.setOp .run := by
  obtain ⟨op, standstill, direction, cause⟩ := h
  exact if_pos ⟨op, standstill, direction, Bool.eq_false_iff.2 fun c => cause (s.safeStopCause_iff.1 c)⟩

theorem State.exitTest_fails (h : ¬(s.mode.op = .safeStop ∧ s.motion.record.standstill = true ∧
    s.intake.record.direction = .n ∧ ¬ SafeStopCause s)) : s.exitTest = s :=
  if_neg fun ⟨op, standstill, direction, cause⟩ =>
    h ⟨op, standstill, direction, fun c => Bool.eq_false_iff.1 cause (s.safeStopCause_iff.2 c)⟩

theorem motionUpdateLaw : MotionUpdateLaw := by
  constructor
  · intro a b n
    simp [n, motionNews]
  · intro s n hold a exits
    exact ⟨rfl, rfl, rfl, rfl, State.exitTest_passes, State.exitTest_fails⟩

/-! ### Announcements of slots (R8) -/

theorem SlotNews.any_iff (n : SlotNews) (i : Fin 16) : n.any i = true ↔ i ∈ n.valid ∨ i ∈ n.subst ∨ i ∈ n.changed := by
  simp [SlotNews.any, or_assoc]

theorem SlotNews.full_iff (n : SlotNews) : n.full = true ↔ wheelRear ∈ n.valid := by simp [SlotNews.full]

theorem SlotNews.recomputes_iff (n : SlotNews) : n.recomputes = true ↔
    wheelRear ∈ n.valid ∨ ∃ i ∈ [wheelRear, wheelFront, radar], i ∈ n.changed ∨ i ∈ n.subst := by
  simp [SlotNews.recomputes, SlotNews.full, or_assoc]

theorem anyOf_iff (n : SlotNews) (is : List (Fin 16)) :
    is.any n.any = true ↔ ∃ i ∈ is, i ∈ n.valid ∨ i ∈ n.subst ∨ i ∈ n.changed := by
  simp [List.any_eq_true, SlotNews.any_iff]

theorem causesOf_iff (n : SlotNews) (is : List (Fin 16)) :
    (is.any fun i => n.changed.contains i) = true ↔ ∃ i ∈ is, i ∈ n.changed := by
  simp [List.any_eq_true]

/-- A list that is there where a condition holds. -/
theorem listIf {c : Bool} {p : Prop} [Decidable p] (h : c = true ↔ p) (ns : List Notice) :
    (if c then ns else []) = if p then ns else [] := ite_of_iff h

theorem SlotNews.notices_eq (n : SlotNews) : n.notices = .motion n ::
    ((if supplyPress ∈ n.valid ∨ supplyPress ∈ n.subst ∨ supplyPress ∈ n.changed then [.supply] else []) ++
      (if steer ∈ n.valid ∨ steer ∈ n.subst ∨ steer ∈ n.changed then [.axle] else []) ++
      if ∃ i ∈ [engSpeed, outSpeed, brakeL, brakeR], i ∈ n.changed then [.causes] else []) := by
  rw [SlotNews.notices, listIf (n.any_iff supplyPress), listIf (n.any_iff steer), listIf (causesOf_iff n _)]

theorem slotNewsLaw : SlotNewsLaw := by
  intro n s told full again m1 m2 m3 m4
  have recomputes : n.recomputes = true ↔ again := n.recomputes_iff
  have fully : n.full = decide full := Bool.eq_iff_iff.2 (n.full_iff.trans decide_eq_true_iff.symm)
  have first : s.onlyIf n.recomputes (State.recompute n.full) = m1 := by
    rw [fully]
    exact State.onlyIf_if recomputes s _
  have second : m1.onlyIf (n.recomputes || n.any outSpeed) State.evalStandstill = m2 :=
    State.onlyIf_if (by rw [Bool.or_eq_true, recomputes, n.any_iff]) m1 _
  have third : m2.onlyIf (n.any brakeL || n.any brakeR) State.evalCoupled = m3 :=
    State.onlyIf_if (by rw [Bool.or_eq_true, n.any_iff, n.any_iff]) m2 _
  have update : s.motionUpdate n = m3 := by
    rw [← third, ← second, ← first]
    rfl
  refine ⟨?_, ?_, rfl, ?_⟩
  · show s.motionTakes n = _
    rw [State.motionTakes, update, State.motionChanged]
    refine State.onlyIf_if ?_ m3 _
    rw [Bool.or_eq_true, recomputes]
    simp [motionNews]
  · show s.refreshMotion = _
    rw [State.refreshMotion, State.motionChanged]
    rfl
  · intro d e f g
    have checked : s.onlyIf (n.any facPress) State.facCheckEval = d := State.onlyIf_if (n.any_iff facPress) s _
    have valid : n.valid.contains hitchPos = decide (hitchPos ∈ n.valid) := by simp
    have raised : d.onlyIf (n.any hitchPos) (State.hitchPosNews (n.valid.contains hitchPos)) = e := by
      rw [valid]
      exact State.onlyIf_if (n.any_iff hitchPos) d _
    have braked : e.onlyIf ([brakeL, brakeR, park, throttle, trailerCoupled].any n.any) State.trailerEvaluate = f :=
      State.onlyIf_if (anyOf_iff n _) e _
    have lined : f.onlyIf (n.any trailerLine) State.lineCheckEval = g := State.onlyIf_if (n.any_iff trailerLine) f _
    rw [State.announceSlots]
    simp only [checked, raised, braked, lined]
    rw [State.announceAll, n.notices_eq]

end

/-- Settles O41. -/
theorem recomputationFollowsSourceAndSlipRules : Obligations.RecomputationFollowsSourceAndSlipRules := by
  refine ⟨fun full s => ?_, coupledLaw, motionUpdateLaw, slotNewsLaw, State.settled_anyOrder⟩
  intro r f w freed
  have vg := s.recomputed_vg full
  have chosen {src : SpeedSource} (h : chooseSource r f w (s.fac.state == .released) = src) :
      (s.recomputed full).source = src ∧ (s.recomputed full).vg =
        speedOf src (s.shown radar) (s.shown wheelFront) (s.shown wheelRear) := by
    have source : (s.recomputed full).source = src := h
    rw [vg, source]
    exact ⟨rfl, rfl⟩
  have released : (s.fac.state == .released) = true ↔ s.fac.state = .released := beq_iff_eq
  refine ⟨s.recomputed full, s.recompute_eq full, fun radarOk => chosen ?_, fun noRadar free => chosen ?_,
    fun noRadar bound front rear => chosen ?_, fun noRadar bound noFront rear => chosen ?_,
    fun noRadar bound noRear => chosen ?_, rfl, slipValidOf_iff _ _, slipOf_low, fun fast valid => ?_,
    fun invalid => ?_, fun valid refresh => ?_, fun valid whole => ?_, rfl, rfl⟩
  · rw [radarOk]
    exact chooseSource_radar _ _ _
  · rw [noRadar, free.2, released.2 free.1]
    exact chooseSource_freed _
  · have apart : (s.fac.state == .released) = false := Bool.eq_false_iff.2 fun k => bound ⟨released.1 k, front⟩
    rw [noRadar, front, rear, apart]
    exact chooseSource_axleMin
  · rw [noRadar, noFront, rear]
    exact chooseSource_rearOnly _
  · rw [noRadar, noRear]
    exact chooseSource_none fun k => bound ⟨released.1 k.1, k.2⟩
  · rw [State.recomputed_slip, valid]
    exact slipOf_valid fast
  · rw [State.recomputed_slipF, invalid]
    rfl
  · rw [State.recomputed_slipF, valid, refresh]
    rfl
  · rw [State.recomputed_slipF, valid, whole]
    rfl

end Sys2Proof.Machine

/-! ### Hitch and headland (chapter 8) -/

namespace Sys2Proof.Machine

section

variable {s t u : State} {st st' : HitchState}

/-! ### Transitions -/

theorem State.setHitch_moved (s : State) (st : HitchState) : HitchMoved s (s.setHitch st) st where
  only := rfl
  state := rfl
  timer := rfl
  memory := rfl
  override := rfl
  correcting := rfl
  restore notControl notLowering := by
    cases st with
    | control => exact absurd rfl notControl
    | lowering => exact absurd rfl notLowering
    | _ => rfl

/-- One transition after another; no correcting raise is reported after the second. -/
theorem HitchMoved.trans (h : HitchMoved s t st) (k : HitchMoved t u st') (left : st' ≠ .control) : HitchMoved s u st' where
  only := by rw [k.only, h.only]
  state := k.state
  timer := k.timer.trans h.timer
  memory := k.memory.trans h.memory
  override := k.override.trans h.override
  correcting := by
    have off : (st' == HitchState.control) = false := beq_eq_false_iff_ne.2 left
    rw [k.correcting, off, Bool.and_false, Bool.and_false]
  restore := k.restore

theorem HitchState.tested_iff (s : State) : s.hitch.state.tested = true ↔ s.testsTransport := by
  rw [State.testsTransport]
  cases s.hitch.state <;> simp [HitchState.tested]

theorem State.holding_transport : s.holding = .transport ↔ s.mode.op = .run ∧ s.intake.record.transport = true ∧
    s.usable hitchPos = true ∧ (s.hitchT.upper : Int) - 20 ≤ s.shown hitchPos := by
  rw [State.holding]
  split
  next h => exact ⟨fun _ => h, fun _ => rfl⟩
  next h => exact ⟨nofun, fun k => absurd k h⟩

theorem State.holding_hold (h : s.holding ≠ .transport) : s.holding = .hold := by
  rw [State.holding] at h ⊢
  split at h
  · exact absurd rfl h
  · exact if_neg ‹_›

theorem State.transportTest_passes (tests : s.testsTransport) (holds : s.holding = .transport) :
    s.transportTest = s.setHitch .transport := by
  obtain ⟨run, request, usable, upper⟩ := State.holding_transport.1 holds
  exact if_pos ⟨run, request, (HitchState.tested_iff s).2 tests, usable, upper⟩

theorem State.transportTest_fails (h : ¬(s.testsTransport ∧ s.holding = .transport)) : s.transportTest = s :=
  if_neg fun ⟨run, request, tested, usable, upper⟩ =>
    h ⟨(HitchState.tested_iff s).1 tested, State.holding_transport.2 ⟨run, request, usable, upper⟩⟩

theorem State.enterHold_moved (s : State) : HitchMoved s s.enterHold s.holding := by
  have held := s.setHitch_moved .hold
  have same : (s.setHitch .hold).holding = s.holding := rfl
  by_cases holds : s.holding = .transport
  · rw [State.enterHold, State.transportTest_passes (.inl held.state) (same.trans holds), holds]
    exact held.trans (State.setHitch_moved _ _) HitchState.noConfusion
  · rw [State.enterHold, State.transportTest_fails fun k => holds (same.symm.trans k.2), State.holding_hold holds]
    exact held

theorem State.holding_notControl (s : State) : s.holding ≠ .control := by
  rw [State.holding]
  split <;> exact HitchState.noConfusion

theorem State.enterRaising_moved (s : State) : HitchMoved s s.enterRaising s.raised := by
  have raising := s.setHitch_moved .raising
  have usable : (s.setHitch .raising).usable hitchPos = s.usable hitchPos := rfl
  have shown : (s.setHitch .raising).shown hitchPos = s.shown hitchPos := rfl
  rw [State.enterRaising, State.raisingTest, State.raised]
  split
  next ends =>
    exact (if_pos ends).symm ▸ raising.trans (State.enterHold_moved _) (State.holding_notControl _)
  next goesOn => exact (if_neg goesOn).symm ▸ raising

theorem State.enterLowering_moved (s : State) (restore : Option Nat) : HitchMoved s (s.enterLowering restore) s.lowered := by
  have lowering : HitchMoved s { s.setHitch .lowering with hitch := { (s.setHitch .lowering).hitch with restore := restore } }
      .lowering := { s.setHitch_moved .lowering with only := rfl, restore := fun _ not => absurd rfl not }
  rw [State.enterLowering, State.lowered]
  cases usable : s.usable hitchPos with
  | true => exact (if_pos usable).symm ▸ lowering
  | false =>
    have none : ¬s.usable hitchPos = true := Bool.eq_false_iff.1 usable
    exact (if_neg none).symm ▸ lowering.trans (State.enterHold_moved _) (State.holding_notControl _)

theorem State.enterLowering_restore (usable : s.usable hitchPos = true) (restore : Option Nat) :
    (s.enterLowering restore).hitch.restore = restore := by
  rw [State.enterLowering]
  exact congrArg (fun x : State => x.hitch.restore) (if_pos (show (s.setHitch .lowering).usable hitchPos = true from usable))

theorem State.matched_iff (s : State) : s.matched = .control ↔ s.usable hitchPos = true ∧
    ((s.intake.record.dial : Int) * 4 - s.shown hitchPos).natAbs ≤ s.hitchT.matchWindow := by
  rw [State.matched]
  split
  next h => exact ⟨fun _ => h, fun _ => rfl⟩
  next h => exact ⟨nofun, fun k => absurd k h⟩

theorem State.matchTest_passes (h : s.matched = .control) : s.matchTest = s.setHitch .control := if_pos (s.matched_iff.1 h)

theorem State.matchTest_fails (h : s.matched ≠ .control) : s.matchTest = s := if_neg fun k => h (s.matched_iff.2 k)

/-! ### Buttons (R124) -/

theorem State.lowerPress_fast (h : (s.hitchT.lowerInhibit : Int) < s.motion.record.vg) : s.lowerPress = s := if_pos h

theorem State.lowerPress_slow (h : ¬(s.hitchT.lowerInhibit : Int) < s.motion.record.vg) :
    s.lowerPress = s.enterLowering none := if_neg h

/-- A press on LOWER where it is taken. -/
theorem State.lowerPress_moved (s : State) : if (s.hitchT.lowerInhibit : Int) < s.motion.record.vg then s.lowerPress = s
    else HitchMoved s s.lowerPress s.lowered ∧ s.lowerPress.hitch.restore = none := by
  split
  next fast => exact State.lowerPress_fast fast
  next slow =>
    rw [State.lowerPress_slow slow]
    refine ⟨s.enterLowering_moved none, ?_⟩
    cases usable : s.usable hitchPos with
    | true => exact State.enterLowering_restore usable none
    | false =>
      refine (s.enterLowering_moved none).restore ?_ ?_ <;> rw [State.lowered, usable]
      · exact s.holding_notControl
      · simp only [Bool.false_eq_true, if_false, State.holding]
        split <;> exact HitchState.noConfusion

theorem State.buttonPress_run (run : s.mode.op = .run) (b : HitchButton) : s.buttonPress b = match b, s.hitch.state with
    | .none, _ => s
    | _, .transport => s
    | .raise, .raising => s
    | .raise, _ => s.enterRaising
    | .lower, .hold => s.lowerPress
    | .lower, .raising => s.lowerPress
    | .lower, _ => s
    | .stop, .startupLock => s
    | .stop, .hold => s
    | .stop, _ => s.enterHold := if_neg (not_not_intro run)

theorem buttonLaw : ButtonLaw := by
  refine fun b s => ⟨fun notRun => if_pos notRun, fun run => ?_⟩
  rw [State.buttonPress_run run]
  cases b with
  | none => cases s.hitch.state <;> rfl
  | raise =>
    cases s.hitch.state with
    | raising | transport => rfl
    | startupLock | hold | control | lowering => exact s.enterRaising_moved
  | lower =>
    cases s.hitch.state with
    | hold | raising => exact s.lowerPress_moved
    | startupLock | control | lowering | transport => rfl
  | stop =>
    cases s.hitch.state with
    | control | raising | lowering => exact s.enterHold_moved
    | startupLock | hold | transport => rfl

/-! ### HITCH_POS (R123, R125, R127, R128) -/

theorem State.hitchPosNews_valid (s : State) : s.hitchPosNews true = s.transportTest.hitchPosNews false := rfl

/-- The test of the hitch state. -/
theorem State.hitchPosNews_test (s : State) : s.hitchPosNews false = match s.hitch.state with
    | .startupLock => s.matchTest
    | .raising => s.raisingTest
    | .control => if s.usable hitchPos then s else s.enterHold
    | .lowering => if s.usable hitchPos then s else s.enterHold
    | .hold => s
    | .transport => s := by
  rw [State.hitchPosNews]
  rfl

theorem State.hitchPosNews_untested (valid : Bool) (h : valid = false ∨ ¬(s.testsTransport ∧ s.holding = .transport)) :
    s.hitchPosNews valid = s.hitchPosNews false := by
  cases valid with
  | false => rfl
  | true =>
    have fails := h.resolve_left Bool.noConfusion
    rw [State.hitchPosNews_valid, State.transportTest_fails fails]

theorem State.matchTest_moved (s : State) :
    if s.matched = .control then HitchMoved s s.matchTest .control else s.matchTest = s := by
  split
  next found => exact State.matchTest_passes found ▸ s.setHitch_moved .control
  next missed => exact State.matchTest_fails missed

theorem State.holding_unusable (h : ¬s.usable hitchPos = true) : s.holding = .hold :=
  State.holding_hold fun k => h (State.holding_transport.1 k).2.2.1

theorem State.raisingTest_moved (s : State) :
    if s.usable hitchPos = true ∧ s.shown hitchPos < (s.hitchT.upper : Int) then s.raisingTest = s
    else HitchMoved s s.raisingTest s.holding := by
  rw [State.raisingTest]
  split
  next below =>
    refine if_neg fun h => ?_
    obtain unusable | above := h
    · exact absurd (below.1.symm.trans unusable) Bool.noConfusion
    · exact absurd below.2 (Int.not_lt.2 above)
  next ends =>
    have held : s.usable hitchPos = false ∨ (s.hitchT.upper : Int) ≤ s.shown hitchPos :=
      (Bool.eq_false_or_eq_true (s.usable hitchPos)).symm.imp_right fun usable =>
        Int.not_lt.1 fun below => ends ⟨usable, below⟩
    exact (if_pos held).symm ▸ s.enterHold_moved

theorem hitchPosLaw : HitchPosLaw := by
  intro valid s
  refine ⟨?_, ?_, ?_, ?_⟩
  · intro isValid tests holds
    subst isValid
    rw [State.hitchPosNews_valid, State.transportTest_passes tests holds]
    exact s.setHitch_moved .transport
  · intro lock
    have untested : ¬(s.testsTransport ∧ s.holding = .transport) := fun h => by
      have := h.1; simp [State.testsTransport, lock] at this
    rw [State.hitchPosNews_untested valid (.inr untested), State.hitchPosNews_test, lock]
    exact s.matchTest_moved
  · intro transport
    have untested : ¬(s.testsTransport ∧ s.holding = .transport) := fun h => by
      have := h.1; simp [State.testsTransport, transport] at this
    rw [State.hitchPosNews_untested valid (.inr untested), State.hitchPosNews_test, transport]
  · intro fails
    have untested : valid = false ∨ ¬(s.testsTransport ∧ s.holding = .transport) :=
      fails.imp_right fun holds h => HitchState.noConfusion (holds.symm.trans h.2)
    rw [State.hitchPosNews_untested valid untested, State.hitchPosNews_test]
    refine ⟨fun hold => by rw [hold], fun raising => ?_, fun moving => ?_⟩
    · rw [raising]
      exact s.raisingTest_moved
    · have same : (match s.hitch.state with
          | .startupLock => s.matchTest
          | .raising => s.raisingTest
          | .control => if s.usable hitchPos then s else s.enterHold
          | .lowering => if s.usable hitchPos then s else s.enterHold
          | .hold => s
          | .transport => s) = if s.usable hitchPos then s else s.enterHold := by
        obtain control | lowering := moving
        · rw [control]
        · rw [lowering]
      rw [same]
      by_cases usable : s.usable hitchPos = true
      · rw [if_pos usable, if_pos usable]
      · rw [if_neg usable, if_neg usable, ← State.holding_unusable usable]
        exact s.enterHold_moved

/-! ### Levels: dial, transport request, entry into RUN and departure from it -/

theorem State.transportChanged_asked (run : s.mode.op = .run) (request : s.intake.record.transport = true) :
    s.transportChanged = s.transportTest := by
  rw [State.transportChanged, if_neg (not_not_intro run), if_pos request]

theorem State.transportChanged_withdrawn (run : s.mode.op = .run) (request : s.intake.record.transport = false) :
    s.transportChanged = if s.hitch.state = .transport then s.enterHold else s := by
  rw [State.transportChanged, if_neg (not_not_intro run), if_neg (Bool.eq_false_iff.1 request)]

theorem State.hitchRun_moved (s : State) :
    HitchMoved { s with hitch := { s.hitch with correcting := false } } s.hitchRun s.matched := by
  have lock : HitchMoved { s with hitch := { s.hitch with correcting := false } } (s.setHitch .startupLock) .startupLock :=
    ⟨rfl, rfl, rfl, rfl, rfl, Bool.and_false _, fun _ _ => rfl⟩
  have same : (s.setHitch .startupLock).matched = s.matched := rfl
  by_cases found : s.matched = .control
  · rw [State.hitchRun, State.matchTest_passes (same.trans found), found]
    exact ⟨rfl, rfl, rfl, rfl, rfl, by simp [State.setHitch], fun not => absurd rfl not⟩
  · have locked : s.matched = .startupLock := by
      rw [State.matched] at found ⊢
      split at found
      · exact absurd rfl found
      · exact if_neg ‹_›
    rw [State.hitchRun, State.matchTest_fails fun k => found (same.symm.trans k), locked]
    exact lock

theorem State.hitchRun_restore (s : State) : s.hitchRun.hitch.restore = none := by
  rw [State.hitchRun, State.matchTest]
  split <;> rfl

theorem State.hitchLeavesRun_eq (s : State) :
    s.hitchLeavesRun = { s with hitch := ⟨.hold, none, false, none, false, s.hitch.timer⟩ } := by
  have off : (s.hitch.correcting && HitchState.hold == .control) = false := Bool.and_false _
  rw [State.hitchLeavesRun, State.setHitch, off]
  rfl

theorem hitchLevelLaw : HitchLevelLaw := by
  intro s
  refine ⟨?_, ?_, fun notRun => if_pos notRun, ?_, ?_, s.hitchRun_moved, s.hitchRun_restore,
    s.hitchLeavesRun_eq⟩
  · rintro ⟨lock, found⟩
    have matches' : s.dialChanged = ({ s with hitch := { s.hitch with restore := none } } : State).matchTest := if_pos lock
    rw [matches', State.matchTest_passes (s := { s with hitch := { s.hitch with restore := none } }) found]
    exact State.setHitch_moved _ _
  · intro fails
    rw [State.dialChanged]
    split
    next lock => exact State.matchTest_fails fun found => fails ⟨lock, found⟩
    next => rfl
  · intro run request
    rw [State.transportChanged_asked run request]
    refine ⟨fun ⟨tests, holds⟩ => ?_, State.transportTest_fails⟩
    exact State.transportTest_passes tests holds ▸ s.setHitch_moved .transport
  · intro run request
    rw [State.transportChanged_withdrawn run request]
    have hold : s.holding = .hold := State.holding_hold fun k =>
      absurd ((State.holding_transport.1 k).2.1.symm.trans request) Bool.noConfusion
    by_cases transport : s.hitch.state = .transport
    · rw [if_pos transport, if_pos transport]
      exact hold ▸ s.enterHold_moved
    · rw [if_neg transport, if_neg transport]

/-! ### The Headland Sequencer (R138 to R140) -/

/-- The memory and the override may be laid down before or after a transition. -/
theorem HitchMoved.relaid (h : HitchMoved s t st) (memory : Option HeadlandMemory) (raised : Bool) :
    HitchMoved { s with hitch := { s.hitch with memory := memory, override := raised } }
      { t with hitch := { t.hitch with memory := memory, override := raised } } st where
  only := by rw [h.only]
  state := h.state
  timer := h.timer
  memory := rfl
  override := rfl
  correcting := h.correcting
  restore := h.restore

theorem HitchMoved.overridden (h : HitchMoved s t st) (raised : Bool) :
    HitchMoved { s with hitch := { s.hitch with override := raised } }
      { t with hitch := { t.hitch with override := raised } } st where
  only := by rw [h.only]
  state := h.state
  timer := h.timer
  memory := h.memory
  override := rfl
  correcting := h.correcting
  restore := h.restore

theorem State.acceptsOut_iff (s : State) : s.acceptsOut = true ↔
    s.mode.op = .run ∧ (s.hitch.state = .control ∨ s.hitch.state = .lowering) ∧ s.hitch.memory = none := by
  simp [State.acceptsOut, and_assoc]

theorem State.acceptsIn_free {m : HeadlandMemory} (held : s.hitch.memory = some m) (free : s.hitch.state ≠ .transport)
    (slow : s.motion.record.vg ≤ (s.hitchT.lowerInhibit : Int)) : s.acceptsIn = some m :=
  (if_pos ⟨free, slow⟩).trans held

theorem State.acceptsIn_none (h : s.hitch.memory = none ∨ s.hitch.state = .transport ∨
    (s.hitchT.lowerInhibit : Int) < s.motion.record.vg) : s.acceptsIn = none := by
  rw [State.acceptsIn]
  split
  next free =>
    obtain none | transport | fast := h
    · exact none
    · exact absurd transport free.1
    · exact absurd free.2 (Int.not_le.2 fast)
  next => rfl

theorem State.headlandNews_in {m : HeadlandMemory} (h : s.acceptsIn = some m) :
    s.headlandNews .inn = (s.headlandLower m).announceAll [.axle, .headlandIn m.gear m.direction] := by
  simp only [State.headlandNews, h]

theorem State.headlandNews_inRefused (h : s.acceptsIn = none) : s.headlandNews .inn = s := by
  simp only [State.headlandNews, h]

theorem headlandLaw : HeadlandLaw := by
  intro s
  refine ⟨rfl, fun refused => if_neg fun h => refused (s.acceptsOut_iff.1 h), fun accepted => ?_, fun none => ?_,
    fun m held => ⟨fun busy => ?_, fun free slow => ?_⟩⟩
  · exact ⟨s.headlandRaise, if_pos (s.acceptsOut_iff.2 accepted),
      (State.enterRaising_moved { s with hitch := { s.hitch with memory := some s.headlandSaved } }).overridden true⟩
  · exact State.headlandNews_inRefused (State.acceptsIn_none (.inl none))
  · exact State.headlandNews_inRefused (State.acceptsIn_none (.inr busy))
  · refine ⟨s.headlandLower m, State.headlandNews_in (State.acceptsIn_free held free slow),
      (State.enterLowering_moved s _).relaid none false, fun usable => State.enterLowering_restore usable _⟩

end

end Sys2Proof.Machine

/-! ### Matched SIGNAL frames (R2, R5 to R8, R12) -/

namespace Sys2Proof.Machine

section

variable {s t w : State} {l : Link} {time : Time} {e : MapEntry} {f : Frame} {us : List (Fin 16 × Int)} {i : Fin 16}

/-! ### A counted frame that disturbs nothing (R160, R170) -/

/-- The blocks behind the intake are as they were, and no event waits. -/
structure State.Calm (w s : State) : Prop where
  drive : w.SameDrive s
  notices : w.notices = []

theorem State.changeLink_calm (quiet : s.notices = []) (c : LinkCtl)
    (same : l = .v → (s.link l).error = c.error ∧ (s.link l).silence = c.silence) : (s.changeLink l c).Calm s := by
  cases l with
  | t => exact ⟨⟨rfl, rfl, rfl, rfl, rfl, rfl, rfl, rfl⟩, quiet⟩
  | v =>
    obtain ⟨error, silence⟩ := same rfl
    have news : (s.setLink .v c).busOffNews (s.link .v).error c.error = s.setLink .v c := by
      rw [State.busOffNews, ← error, if_neg fun h => h.1 h.2, if_neg fun h => h.2 h.1]
    have kept : ¬((s.link .v).error ≠ c.error ∨ (s.link .v).silence ≠ c.silence) := by
      rw [error, silence]
      exact fun h => h.elim (· rfl) (· rfl)
    simp only [State.changeLink, news]
    rw [if_neg kept]
    exact ⟨⟨rfl, rfl, rfl, rfl, rfl, rfl, rfl, rfl⟩, quiet⟩

theorem State.heardOn_calm (calm : s.Undisturbed l) (time : Time) : (s.heardOn time l).Calm s := by
  obtain ⟨quiet, vLink⟩ := calm
  have change := State.changeLink_calm (s := s.atTime time) (l := l) quiet
    { ((s.atTime time).link l).rxGood with silence := .ok, silenceStart := some (s.atTime time).now } fun v => by
      subst v
      obtain ⟨silence, error⟩ := vLink rfl
      exact ⟨error.symm, silence⟩
  rw [State.heardOn, State.countFrame]
  generalize (s.atTime time).changeLink l
    { ((s.atTime time).link l).rxGood with silence := .ok, silenceStart := some (s.atTime time).now } = v at change
  exact ⟨{ change.drive with }, change.notices⟩

theorem State.Calm.forward (calm : w.Calm s) (l : Link) (e : MapEntry) (f : Frame) : (w.forward l e f).Calm s := by
  rw [State.forward_eq]
  cases l <;> exact ⟨{ calm.drive with }, calm.notices⟩

theorem State.Calm.updated (calm : w.Calm s) (us : List (Fin 16 × Int)) : (w.updated us).Calm s := by
  obtain ⟨slots, faults, -, same⟩ := w.updated_relaid us
  rw [same]
  exact ⟨{ calm.drive with }, calm.notices⟩

/-! ### The slots after the updates (R12) -/

theorem State.slot_relaid (s : State) (slots : Vector Slot 16) (before : List TWord) (faults : Faults) (i : Fin 16) :
    (s.relaid slots before faults).slot i = slots[i] := rfl

theorem State.slot_updateSlot_same (s : State) (i : Fin 16) (v : Int) :
    (s.updateSlot i v).slot i = ⟨.fresh, v, s.after (s.timeoutMs i)⟩ := by
  rw [State.updateSlot_eq, State.slot_relaid]
  exact Vector.getElem_set_self ..

theorem State.slot_updateSlot_other {j : Fin 16} (s : State) (other : i ≠ j) (v : Int) :
    (s.updateSlot i v).slot j = s.slot j := by
  rw [State.updateSlot_eq, State.slot_relaid]
  exact Vector.getElem_set_ne _ _ fun same => other (Fin.ext same)

theorem State.updated_cons (s : State) (u : Fin 16 × Int) (us : List (Fin 16 × Int)) :
    s.updated (u :: us) = (s.updateSlot u.1 u.2).updated us := rfl

/-- A slot that no update feeds stays. -/
theorem State.slot_updated_other (h : i ∉ us.map (·.1)) : (s.updated us).slot i = s.slot i := by
  induction us generalizing s with
  | nil => rfl
  | cons u us ih =>
    rw [List.map_cons, List.mem_cons, not_or] at h
    rw [State.updated_cons, ih h.2, State.slot_updateSlot_other s (Ne.symm h.1)]

theorem State.updateSlot_timeout (s : State) (j : Fin 16) (v : Int) (i : Fin 16) :
    (s.updateSlot j v).after ((s.updateSlot j v).timeoutMs i) = s.after (s.timeoutMs i) := by
  rw [State.updateSlot_eq]
  rfl

/-- A slot that one update feeds holds its value. -/
theorem State.slot_updated_fed {v : Int} (once : (us.map (·.1)).Nodup) (h : (i, v) ∈ us) :
    (s.updated us).slot i = ⟨.fresh, v, s.after (s.timeoutMs i)⟩ := by
  induction us generalizing s with
  | nil => exact absurd h List.not_mem_nil
  | cons u us ih =>
    rw [List.map_cons, List.nodup_cons] at once
    rw [State.updated_cons]
    obtain here | later := List.mem_cons.1 h
    · subst here
      rw [State.slot_updated_other once.1, State.slot_updateSlot_same]
    · rw [ih once.2 later, State.updateSlot_timeout]

/-! ### The announcement of the updates (R8) -/

/-- What the updates announce. -/
def State.updateNews (s : State) (us : List (Fin 16 × Int)) : SlotNews :=
  ⟨us.map (·.1), [], (us.map (·.1)).filter fun i => (s.slot i).state != .fresh⟩

/-- With no unmapped slot among them, all updates of a frame are made and announced together. -/
theorem State.applyUpdates_eq (mapped : ∀ u ∈ us, (s.slot u.1).state ≠ .unmapped) :
    s.applyUpdates us = if us = [] then s else (s.updated us).announceSlots (s.updateNews us) := by
  have all : (us.filter fun u => (s.slot u.1).state != .unmapped) = us :=
    List.filter_eq_self.2 fun u mem => bne_iff_ne.2 (mapped u mem)
  rw [State.applyUpdates, all]
  rfl

theorem State.applyUpdates_settles (mapped : ∀ u ∈ us, (s.slot u.1).state ≠ .unmapped) :
    Reacts (s.updated us) (s.applyUpdates us).settled := by
  rw [State.applyUpdates_eq mapped]
  split
  next none =>
    subst none
    exact s.settled_reacts
  next => exact State.slotAnnounced_reacts _ _

theorem extractAll_slots (e : MapEntry) (data : List Byte) : (extractAll e data).map (·.1) =
    (e.extractions.filter fun x => x.present data && x.available data).map (·.slot) := by
  rw [extractAll, List.map_map]
  rfl

theorem extractAll_nodup (once : (e.extractions.map (·.slot)).Nodup) (data : List Byte) :
    ((extractAll e data).map (·.1)).Nodup := by
  rw [extractAll_slots]
  exact once.sublist (List.filter_sublist.map _)

theorem mem_extractAll {x : Extraction} {data : List Byte} (mem : x ∈ e.extractions) (present : x.present data = true)
    (available : x.available data = true) : (x.slot, x.value data) ∈ extractAll e data :=
  List.mem_map.2 ⟨x, List.mem_filter.2 ⟨mem, by rw [present, available]; rfl⟩, rfl⟩

theorem notMem_extractAll {data : List Byte}
    (h : ∀ x ∈ e.extractions, x.slot = i → x.present data = false ∨ x.available data = false) :
    i ∉ (extractAll e data).map (·.1) := by
  rw [extractAll_slots]
  intro mem
  obtain ⟨x, kept, slot⟩ := List.mem_map.1 mem
  obtain ⟨mem, both⟩ := List.mem_filter.1 kept
  obtain ⟨present, available⟩ := (Bool.and_eq_true ..).mp both
  obtain absent | absent := h x mem slot
  · exact absurd (present.symm.trans absent) Bool.noConfusion
  · exact absurd (available.symm.trans absent) Bool.noConfusion

end

/-- Settles O14. -/
theorem signalFrameUpdatesItsSlots : Obligations.SignalFrameUpdatesItsSlots := by
  refine ⟨?_, hitchPosLaw⟩
  intro s time l f e reset on matched kind once mapped
  have found := s.forward_finds time l e (rxFrame f)
  have calm : s.Undisturbed l → ((s.heardOn time l).forward l e (rxFrame f)).Calm s := fun h =>
    (State.heardOn_calm h time).forward l e (rxFrame f)
  refine ⟨_, congrArg Host.Outcome.next (State.receive_heard reset on), ?_⟩
  rw [State.takeFrame_signal matched kind]
  generalize (s.heardOn time l).forward l e (rxFrame f) = w at found calm ⊢
  have slot (i : Fin 16) : w.slot i = s.slot i := congrArg (fun x : Intake => x.slots[i]) found.intake
  have places (u : Fin 16 × Int) (mem : u ∈ extractAll e (rxFrame f).data) : (w.slot u.1).state ≠ .unmapped := by
    rw [slot]
    obtain ⟨x, kept, rfl⟩ := List.mem_map.1 mem
    exact mapped x (List.mem_filter.1 kept).1
  have events := State.applyUpdates_settles places
  have announced := State.applyUpdates_eq places
  have unique := extractAll_nodup once (rxFrame f).data
  obtain ⟨slots, faults, -, relaid⟩ := w.updated_relaid (extractAll e (rxFrame f).data)
  have now : (w.updated (extractAll e (rxFrame f).data)).now = max s.now time := by
    rw [relaid]
    exact found.now
  have clock := events.now.trans now
  have timeout (i : Fin 16) : w.after (w.timeoutMs i) =
      some ((w.applyUpdates (extractAll e (rxFrame f).data)).settled.now + s.timeoutMs i * Config.msTicks) := by
    rw [clock, State.after, found.now, State.timeoutMs, State.inUse_of_tables found.tables .intakeMap]
    rfl
  have kept : (w.updated (extractAll e (rxFrame f).data)).tables = w.tables := by rw [relaid]; rfl
  have spared : (w.updated (extractAll e (rxFrame f).data)).intake.record = w.intake.record ∧
      (w.updated (extractAll e (rxFrame f).data)).mgmt = w.mgmt ∧
      (w.updated (extractAll e (rxFrame f).data)).supervisor = w.supervisor ∧
      (w.updated (extractAll e (rxFrame f).data)).draft = w.draft ∧
      (w.updated (extractAll e (rxFrame f).data)).mail = w.mail ∧
      (w.updated (extractAll e (rxFrame f).data)).emission = w.emission := by
    rw [relaid]
    exact ⟨rfl, rfl, rfl, rfl, rfl, rfl⟩
  obtain ⟨record, mgmt, supervisor, draft, mail, emission⟩ := spared
  refine ⟨clock, fun x mem present available => ?_, fun i none => ?_, ?_, events.tables.trans (kept.trans found.tables),
    events.mgmt.trans (mgmt.trans found.mgmt), events.supervisor.trans (supervisor.trans found.supervisor),
    (congrArg Draft.record (events.draft.trans draft)).trans found.draft, ?_, ?_, fun undisturbed => ?_⟩
  · rw [events.slot, State.slot_updated_fed unique (mem_extractAll mem present available), timeout]
  · rw [events.slot, State.slot_updated_other (notMem_extractAll none), slot]
  · rw [events.intake, record, found.intake]
  · exact (events.mailbox (id := .reply) nofun).trans (congrArg Mailboxes.reply (mail.trans found.mail))
  · exact events.emission.trans (emission.trans found.emission)
  · have quiet := (calm undisturbed).updated (extractAll e (rxFrame f).data)
    refine ⟨_, quiet.drive, events.now.symm, events.intake.symm, events.tables.symm, quiet.notices, ?_⟩
    rw [announced, State.updateNews, extractAll_slots]
    simp only [slot]
    by_cases none : extractAll e (rxFrame f).data = []
    · have unfed : (e.extractions.filter fun x => x.present (rxFrame f).data && x.available (rxFrame f).data).map
          (·.slot) = [] := by rw [← extractAll_slots, none]; rfl
      rw [if_pos none, if_pos unfed, none]
      exact State.settled_nil (calm undisturbed).notices
    · have fed : (e.extractions.filter fun x => x.present (rxFrame f).data && x.available (rxFrame f).data).map
          (·.slot) ≠ [] := by
        rw [← extractAll_slots]
        exact fun empty => none (List.map_eq_nil_iff.1 empty)
      rw [if_neg none, if_neg fed]

end Sys2Proof.Machine

/-! ### Orders put in flight (R64, R65, R72, R74) and the ladders (R37, R46) -/

namespace Sys2Proof.Machine

section

variable {s t : State} {o : Order} {kind : OrderKind} {a b : Option Nat} {dir origin d : Dir}

/-! ### Grant decisions: what they write -/

theorem State.facGranted_only (waits : s.fac.state = .releaseWait) :
    ∃ fac notices, s.facGranted = { s with fac := fac, notices := notices } := by
  have kept : ¬(s.fac.state = .released ∧ FacState.releaseFill ≠ .released) := fun h =>
    FacState.noConfusion (waits.symm.trans h.1)
  simp only [State.facGranted, State.setFac, if_neg kept]
  exact ⟨_, _, rfl⟩

theorem State.grantFac_only (s : State) : ∃ arbiter fac notices,
    s.grantFac = { s with arbiter := arbiter, fac := fac, notices := notices } := by
  rw [State.grantFac]
  split
  · split
    next waits =>
      obtain ⟨fac, notices, same⟩ := State.facGranted_only
        (s := { s with arbiter := { s.arbiter.take .fac with facWait := false } }) waits
      exact ⟨_, fac, notices, same⟩
    next => exact ⟨_, s.fac, s.notices, rfl⟩
  · exact ⟨s.arbiter, s.fac, s.notices, rfl⟩

/-- A grant decision writes the arbiter, the order it starts, the front axle and the trailer brake's window. -/
theorem State.decideFill_only (s : State) : ∃ shift arbiter fac trailer notices,
    s.decideFill = { s with shift := shift, arbiter := arbiter, fac := fac, trailer := trailer, notices := notices } := by
  rw [State.decideFill]
  split
  · obtain ⟨arbiter, fac, notices, second⟩ := s.grantShift.grantFac_only
    rw [second, State.grantShift]
    split
    · exact ⟨s.shift, arbiter, fac, s.trailer, notices, rfl⟩
    · split
      · obtain ⟨shift, trailer, first⟩ := State.shiftGranted_only { s with arbiter :=
          { (List.range ‹Nat›).foldl (fun a _ => a.take .shift) s.arbiter with shiftWait := none } }
        rw [first]
        exact ⟨shift, arbiter, fac, trailer, notices, rfl⟩
      · exact ⟨s.shift, arbiter, fac, s.trailer, notices, rfl⟩
  · exact ⟨s.shift, s.arbiter, s.fac, s.trailer, s.notices, rfl⟩

/-- An order that a grant starts. -/
def Order.granted (o : Order) : Order :=
  { o with phase := if o.engaging then .fill else .prepare, count := 0, driving := true }

theorem State.shiftGranted_starts (order : s.shift.order = some o) (wait : o.phase = .waitSupply) :
    s.shiftGranted.shift = { s.shift with order := some o.granted } := by
  have opens (u : State) : u.openWindow.shift = u.shift := rfl
  simp only [State.shiftGranted, order, if_pos wait]
  split
  · exact opens _
  · rfl

/-! ### The entry of an order -/

/-- The slots an order asks for are granted at once. -/
abbrev State.Supplies (s : State) (n : Nat) : Prop :=
  (s.clutchHdr.supplyMin : Int) ≤ s.shown supplyPress ∧ n ≤ s.arbiter.count .free

/-- `t` is `s` with order `o` in flight: its slots are granted at once, or waited for (R65). -/
structure Entered (s t : State) (o : Order) : Prop where
  only : t = { s with shift := t.shift, arbiter := t.arbiter, fac := t.fac, trailer := t.trailer, neut := t.neut,
                      notices := t.notices }
  idle : o.phase ≠ .waitSupply → t.shift = { s.shift with order := some o } ∧ t.arbiter = s.arbiter
  granted : o.phase = .waitSupply → s.Supplies o.oncoming.length →
    t.shift = { s.shift with order := some o.granted } ∧ t.arbiter.shiftWait = none ∧
      t.arbiter.count .shift = s.arbiter.count .shift + o.oncoming.length
  waits : o.phase = .waitSupply → ¬s.Supplies o.oncoming.length →
    t.shift = { s.shift with order := some o } ∧ t.arbiter = { s.arbiter with shiftWait := some o.oncoming.length }

/-- A waiting request that is granted. -/
theorem State.decideFill_serves {n : Nat} (asks : s.arbiter.shiftWait = some n) (h : s.Supplies n)
    (order : s.shift.order = some o) (wait : o.phase = .waitSupply) :
    s.decideFill.shift = { s.shift with order := some o.granted } ∧ s.decideFill.arbiter.shiftWait = none ∧
      s.decideFill.arbiter.count .shift = s.arbiter.count .shift + n := by
  obtain ⟨supply, enough⟩ := h
  obtain ⟨shift, wait', count⟩ := State.grantFac_shift ({ s with arbiter := s.arbiter.shiftServed n } : State).shiftGranted
  rw [State.decideFill_supplied supply, State.grantShift_served asks enough, shift, wait', count,
    State.shiftGranted_arbiter,
    State.shiftGranted_starts (s := { s with arbiter := s.arbiter.shiftServed n }) order wait]
  exact ⟨rfl, rfl, (Arbiter.shiftServed_counts enough).2⟩

/-- A waiting request that is not granted; no other is granted past it. -/
theorem State.decideFill_holds {n : Nat} (asks : s.arbiter.shiftWait = some n) (h : ¬s.Supplies n) : s.decideFill = s := by
  by_cases supply : (s.clutchHdr.supplyMin : Int) ≤ s.shown supplyPress
  · have few : s.arbiter.count .free < n := Nat.lt_of_not_le fun enough => h ⟨supply, enough⟩
    rw [State.decideFill_supplied supply, State.grantShift_few asks few]
    exact State.grantFac_behind (asks ▸ Option.some_ne_none n)
  · exact State.decideFill_refused supply

theorem State.shiftRequest_only (s : State) (n : Nat) : ∃ shift arbiter fac trailer notices, s.shiftRequest n =
    { s with shift := shift, arbiter := arbiter, fac := fac, trailer := trailer, notices := notices } :=
  State.decideFill_only { s with arbiter := { s.arbiter with shiftWait := some n } }

theorem State.shiftRequest_refused {n : Nat} (h : ¬s.Supplies n) :
    s.shiftRequest n = { s with arbiter := { s.arbiter with shiftWait := some n } } :=
  State.decideFill_holds (s := { s with arbiter := { s.arbiter with shiftWait := some n } }) rfl h

theorem State.enterOrder_entered (s : State) (o : Order) : Entered s (s.enterOrder o) o := by
  by_cases wait : o.phase = .waitSupply
  · have asks : s.enterOrder o =
        (({ s with shift := { s.shift with order := some o } } : State).setNeut).shiftRequest o.oncoming.length := if_pos wait
    refine ⟨?_, fun not => absurd wait not, fun _ supplied => ?_, fun _ refused => ?_⟩
    · obtain ⟨shift, arbiter, fac, trailer, notices, same⟩ := State.shiftRequest_only
        ({ s with shift := { s.shift with order := some o } } : State).setNeut o.oncoming.length
      rw [asks, same]
      rfl
    · rw [asks, State.shiftRequest]
      exact State.decideFill_serves (o := o) rfl supplied rfl wait
    · rw [asks, State.shiftRequest_refused (s := ({ s with shift := { s.shift with order := some o } } : State).setNeut)
        refused]
      exact ⟨rfl, rfl⟩
  · have idle : s.enterOrder o = ({ s with shift := { s.shift with order := some o } } : State).setNeut := if_neg wait
    rw [idle]
    exact ⟨rfl, fun _ => ⟨rfl, rfl⟩, fun k => absurd k wait, fun k => absurd k wait⟩

/-! ### The issue of an order (R64) -/

/-- What a new order carries from its issue on. -/
structure Order.Starts (o : Order) (s : State) (kind : OrderKind) (a b : Option Nat) (dir origin : Dir) : Prop where
  kind : o.kind = kind
  fromGear : o.fromGear = a
  toGear : o.toGear = b
  dir : o.dir = dir
  origin : o.origin = origin
  duration : o.duration = 0
  count : o.count = 0
  merged : o.merged = none
  freed : o.freed = false
  forced : o.forced = false
  ending : o.ending = false
  dump : o.dump = none
  flare : o.flare = false
  tieUp : o.tieUp = false
  lastLocked : o.lastLocked = a
  ratio : ∀ g, b = some g → o.ratioTo = (gearEntry s.gearWords g).ratio
  moveOn : o.moveOn = (clutchesOf s b).filter (fun c => !(clutchesOf s a).contains c)
  moveOff : o.moveOff = (clutchesOf s a).filter (fun c => !(clutchesOf s b).contains c)

theorem clutchesOf_eq (s : State) (g : Option Nat) : gearClutches s.gearWords g = clutchesOf s g := by
  cases g <;> rfl

theorem newOrder_starts (s : State) (kind : OrderKind) (a b : Option Nat) (dir origin : Dir) :
    (newOrder s.gearWords kind a b dir origin).Starts s kind a b dir origin := by
  refine ⟨rfl, rfl, rfl, rfl, rfl, rfl, rfl, rfl, rfl, rfl, rfl, rfl, rfl, rfl, rfl, ?_, ?_, ?_⟩
  · rintro g rfl
    rfl
  · rw [← clutchesOf_eq, ← clutchesOf_eq]
    rfl
  · rw [← clutchesOf_eq, ← clutchesOf_eq]
    rfl

theorem Order.Starts.begun (h : o.Starts s kind a b dir origin) : o.begun.Starts s kind a b dir origin := by
  rw [Order.begun]
  cases o.kind with
  | swap1 | swap2 | free => exact { h with count := rfl }
  | engage => exact { h with count := rfl }
  | release | shuttle => exact h

theorem Order.Starts.granted (h : o.Starts s kind a b dir origin) : o.granted.Starts s kind a b dir origin :=
  { h with count := rfl }

/-- An order that has asked for slots: in phase `p` with them, or waiting. -/
def Order.Asks (q : Order) (s t : State) (p : Phase) : Prop :=
  let n := q.oncoming.length
  if s.Supplies n
  then q.driving = true ∧ q.phase = p ∧ t.arbiter.shiftWait = none ∧ t.arbiter.count .shift = s.arbiter.count .shift + n
  else q.driving = false ∧ q.phase = .waitSupply ∧ t.arbiter = { s.arbiter with shiftWait := some n }

/-- Where an order that has to ask for its slots goes on. -/
theorem Entered.asks (h : Entered s t o) (wait : o.phase = .waitSupply) (fresh : o.driving = false) :
    ∃ q, t.shift = { s.shift with order := some q } ∧ (q = o ∨ q = o.granted) ∧
      q.Asks s t (if o.engaging then .fill else .prepare) := by
  by_cases supplied : s.Supplies o.oncoming.length
  · obtain ⟨shift, served, count⟩ := h.granted wait supplied
    exact ⟨o.granted, shift, .inr rfl, Eq.mpr (if_pos supplied) ⟨rfl, rfl, served, count⟩⟩
  · obtain ⟨shift, arbiter⟩ := h.waits wait supplied
    exact ⟨o, shift, .inl rfl, Eq.mpr (if_neg supplied) ⟨fresh, wait, arbiter⟩⟩

/-- `Issued` less the common part of every order. -/
def Order.IssuedIn (q : Order) (s t : State) (kind : OrderKind) (dir : Dir) : Prop :=
  let idle := t.arbiter = s.arbiter
  let asks := q.Asks s t (if kind = .engage then .fill else .prepare)
  match kind with
  | .release | .shuttle => q.phase = .dump ∧ q.sub = .dump ∧ idle
  | .engage => q.oncoming = [⟨if dir = .f then 7 else 8, 0⟩] ∧ q.offgoing = [] ∧ asks
  | .swap1 | .swap2 | .free => q.oncoming = q.moveOn.map (⟨·, 0⟩) ∧ q.offgoing = q.moveOff.map (⟨·, 0⟩) ∧
    if q.moveOn = [] then q.phase = .lock ∧ q.driving = false ∧ idle else asks

theorem Issued.of_starts (q : Order)
    (only : t = { s with gear := t.gear, shift := t.shift, arbiter := t.arbiter, fac := t.fac, trailer := t.trailer,
                         neut := t.neut, notices := t.notices })
    (shift : t.shift = { s.shift with order := some q }) (h : q.Starts s kind a b dir origin)
    (rest : q.IssuedIn s t kind dir) : Issued s t kind a b dir origin := by
  refine ⟨only, q, shift, h.kind, h.fromGear, h.toGear, h.dir, h.origin, h.duration, h.count, h.merged, h.freed, h.forced,
    h.ending, h.dump, h.flare, h.tieUp, h.lastLocked, h.ratio, h.moveOn, h.moveOff, ?_⟩
  cases kind <;> exact rest

theorem Entered.gearOnly (h : Entered s t o) :
    t = { s with gear := t.gear, shift := t.shift, arbiter := t.arbiter, fac := t.fac, trailer := t.trailer,
                 neut := t.neut, notices := t.notices } := by
  have gear : t.gear = s.gear := by rw [h.only]
  rw [gear]
  exact h.only

theorem dirClutch_eq (d : Dir) : dirClutch d = if d = .f then 7 else 8 := by
  cases d <;> rfl

/-- A swap or FREE that is put in flight. -/
theorem Entered.issuesMove (h : Entered s t (newOrder s.gearWords kind a b dir origin).toMove)
    (move : kind = .swap1 ∨ kind = .swap2 ∨ kind = .free) : Issued s t kind a b dir origin := by
  have starts : (newOrder s.gearWords kind a b dir origin).toMove.Starts s kind a b dir origin :=
    { newOrder_starts s kind a b dir origin with count := rfl }
  have other : (newOrder s.gearWords kind a b dir origin).toMove.engaging = false := by
    obtain rfl | rfl | rfl := move <;> rfl
  have reads (q : Order) (rest : q.oncoming = q.moveOn.map (⟨·, 0⟩) ∧ q.offgoing = q.moveOff.map (⟨·, 0⟩) ∧
      if q.moveOn = [] then q.phase = .lock ∧ q.driving = false ∧ t.arbiter = s.arbiter else q.Asks s t .prepare) :
      q.IssuedIn s t kind dir := by
    obtain rfl | rfl | rfl := move <;> exact rest
  generalize (newOrder s.gearWords kind a b dir origin) = o at h starts other
  by_cases still : o.moveOn = []
  · have phase : o.toMove.phase = .lock := if_pos still
    obtain ⟨shift, arbiter⟩ := h.idle (phase ▸ Phase.noConfusion)
    refine .of_starts o.toMove h.gearOnly shift starts (reads _ ⟨rfl, rfl, ?_⟩)
    exact (if_pos (c := o.toMove.moveOn = []) still).symm ▸ ⟨phase, rfl, arbiter⟩
  · have phase : o.toMove.phase = .waitSupply := if_neg still
    obtain ⟨q, shift, which, asks⟩ := h.asks phase rfl
    rw [other] at asks
    have moves : q.IssuedIn s t kind dir := by
      refine reads q ?_
      obtain rfl | rfl := which <;> exact ⟨rfl, rfl, (if_neg (c := o.moveOn = []) still).symm ▸ asks⟩
    refine .of_starts q h.gearOnly shift ?_ moves
    obtain rfl | rfl := which
    · exact starts
    · exact starts.granted

/-- An ENGAGE that is put in flight. -/
theorem Entered.issuesEngage (h : Entered s t (newOrder s.gearWords .engage a b dir origin).toEngage) :
    Issued s t .engage a b dir origin := by
  have starts : (newOrder s.gearWords .engage a b dir origin).toEngage.Starts s .engage a b dir origin :=
    { newOrder_starts s .engage a b dir origin with count := rfl }
  have oncoming : drivesOf [dirClutch dir] = [⟨if dir = .f then 7 else 8, 0⟩] := by rw [dirClutch_eq]; rfl
  obtain ⟨q, shift, which, asks⟩ := h.asks rfl rfl
  refine .of_starts q h.gearOnly shift ?_ ?_
  · obtain rfl | rfl := which
    · exact starts
    · exact starts.granted
  · obtain rfl | rfl := which <;> exact ⟨oncoming, rfl, asks⟩

/-- An order is issued (R64). -/
theorem State.takeOrder_issued (s : State) (kind : OrderKind) (a b : Option Nat) (dir origin : Dir) :
    Issued s (s.takeOrder kind a b dir origin) kind a b dir origin := by
  have entered := s.enterOrder_entered (newOrder s.gearWords kind a b dir origin).begun
  cases kind with
  | swap1 => exact entered.issuesMove (.inl rfl)
  | swap2 => exact entered.issuesMove (.inr (.inl rfl))
  | free => exact entered.issuesMove (.inr (.inr rfl))
  | engage => exact entered.issuesEngage
  | release | shuttle =>
    obtain ⟨shift, arbiter⟩ := entered.idle Phase.noConfusion
    exact .of_starts _ entered.gearOnly shift (newOrder_starts s _ a b dir origin) ⟨rfl, rfl, arbiter⟩

theorem State.takeOrder_gear (s : State) (kind : OrderKind) (a b : Option Nat) (dir origin : Dir) :
    (s.takeOrder kind a b dir origin).gear = s.gear := by
  rw [State.takeOrder, (s.enterOrder_entered _).only]

/-- An issue after the selector has moved. -/
theorem Issued.ofGear {g : Gear} (h : Issued { s with gear := g } t kind a b dir origin) : Issued s t kind a b dir origin := h

end

end Sys2Proof.Machine

/-! ### The ladders (R37, R46) and the decisions of the Gear Selector (R45 to R52, R54 to R56) -/

namespace Sys2Proof.Machine

section

variable {s t : State} {d x y : Dir} {l : List Nat} {i j k : Nat} {a b c : Nat} {ws : List TWord}

/-! ### Ladders -/

theorem gearsOf_sorted (d : Dir) : (gearsOf d).Pairwise (· < ·) := by
  cases d <;> decide

theorem mem_gearsOf {g : Nat} : g ∈ gearsOf d ↔ if d = .f then g < 12 else 12 ≤ g ∧ g < 20 := by
  cases d with
  | f => exact List.mem_range
  | r =>
    refine List.mem_map.trans ⟨?_, ?_⟩
    · rintro ⟨n, small, rfl⟩
      rw [List.mem_range] at small
      exact ⟨by omega, by omega⟩
    · rintro ⟨low, high⟩
      exact ⟨g - 12, List.mem_range.2 (by omega), by omega⟩

theorem ladder_sorted (ws : List TWord) (d : Dir) : (ladder ws d).Pairwise (· < ·) := (gearsOf_sorted d).filter _

theorem ladderLaw : LadderLaw := by
  refine fun ws d => ⟨fun g => ?_, ladder_sorted ws d⟩
  rw [ladder, List.mem_filter, mem_gearsOf]

theorem placeOn_some (h : placeOn l a = some i) : l[i]? = some a := by
  obtain ⟨inside, found, -⟩ := List.findIdx?_eq_some_iff_getElem.1 h
  rw [List.getElem?_eq_getElem inside, beq_iff_eq.1 found]

theorem placeOn_none_iff : placeOn l a = none ↔ a ∉ l := by
  rw [placeOn, List.findIdx?_eq_none_iff]
  exact ⟨fun h mem => absurd (h a mem) (by simp), fun h x mem => beq_false_of_ne fun same => h (same ▸ mem)⟩

/-- On a ladder every gear has one place. -/
theorem placeOn_of_get (sorted : l.Pairwise (· < ·)) (h : l[i]? = some a) : placeOn l a = some i := by
  cases found : placeOn l a with
  | none => exact absurd (List.mem_of_getElem? h) (placeOn_none_iff.1 found)
  | some n =>
    have inside : n < l.length := (List.getElem?_eq_some_iff.1 (placeOn_some found)).1
    exact congrArg some ((List.getElem?_inj inside (sorted.imp Nat.ne_of_lt)).1 ((placeOn_some found).trans h.symm))

theorem State.placeOn_ladder (s : State) (h : (s.ladderOf d)[i]? = some a) : placeOn (s.ladderOf d) a = some i :=
  placeOn_of_get (ladder_sorted _ d) h

theorem stepToward_eq (i j k : Nat) : stepToward i j k = if i ≤ j then min (i + k) j else max (i - k) j := by
  rw [stepToward]
  split <;> omega

theorem getD_of_get {e : Nat} (h : l[i]? = some a) : l.getD i e = a := by
  rw [List.getD_eq_getElem?_getD, h]
  rfl

theorem get_of_lt {e : Nat} (h : i < l.length) : l[i]? = some (l.getD i e) := by
  rw [List.getD_eq_getElem?_getD, List.getElem?_eq_getElem h]
  rfl

/-- The gear at most K positions on (R46). -/
theorem State.moveTo_movesTo (s : State) (d : Dir) (a b : Nat) : MovesTo s d a b (s.moveTo (s.ladderOf d) a b) := by
  refine ⟨fun i j from' to' => ?_, fun off => ?_⟩
  · have between : (if i ≤ j then min (i + (gearHeader s.gearWords).k) j else max (i - (gearHeader s.gearWords).k) j) <
        (s.ladderOf d).length := by
      have low := (List.getElem?_eq_some_iff.1 from').1
      have high := (List.getElem?_eq_some_iff.1 to').1
      split <;> omega
    simp only [State.moveTo, s.placeOn_ladder from', s.placeOn_ladder to', stepToward_eq]
    exact get_of_lt between
  · rw [State.moveTo]
    obtain off | off := off
    · rw [placeOn_none_iff.2 off]
    · rw [placeOn_none_iff.2 off]
      cases placeOn (s.ladderOf d) a <;> rfl

/-! ### The issue of a swap or a FREE (R46, R47) -/

theorem State.issueSwap_toward (s : State) (a b : Nat) : (s.issueSwap a b).gear = s.gear ∧ SwapToward s (s.issueSwap a b) a b :=
  ⟨s.takeOrder_gear .., _, s.moveTo_movesTo s.gear.dir a b, s.takeOrder_issued ..⟩

theorem SwapToward.ofGear {g : Gear} (same : g.dir = s.gear.dir) (h : SwapToward { s with gear := g } t a b) :
    SwapToward s t a b := by
  obtain ⟨dest, moves, issued⟩ := h
  refine ⟨dest, ?_, ?_⟩
  · rw [← same]
    exact moves
  · rw [← same]
    exact issued

theorem State.decideFree_case (s : State) : FreeCase s s.decideFree := by
  constructor
  · intro still
    rw [State.decideFree]
    split
    · rfl
    next target =>
      refine if_pos ?_
      obtain none | current := still
      · exact absurd (target.symm.trans none) nofun
      · exact current.symm.trans target
  · intro b target moves
    have issues : s.decideFree = s.issueFree b := by
      simp only [State.decideFree, target, if_neg moves]
    rw [issues]
    refine ⟨s.takeOrder_gear .., _, s.takeOrder_issued .., fun none => ?_, fun a current => ?_⟩
    · rw [none]
    · rw [current]
      exact s.moveTo_movesTo s.gear.dir a b

/-! ### The schedule test (R54 to R56) -/

/-- The schedule calls for an upward move from place `p` (R55). -/
abbrev State.CallsUp (s : State) (a p : Nat) : Prop :=
  p + 1 < (s.ladderOf .f).length ∧ (scheduleUp (s.inUse .shiftSchedule) a : Int) ≤ s.shown engSpeed ∧
    ((scheduleHeader (s.inUse .shiftSchedule)).minThrottle : Int) ≤ s.shown throttle ∧ s.motion.record.coupled = false

/-- It calls for a downward move, an upward one apart. -/
abbrev State.CallsDown (s : State) (a p : Nat) : Prop :=
  0 < p ∧ s.shown engSpeed ≤ (scheduleDown (s.inUse .shiftSchedule) a : Int) +
    (if s.motion.record.coupled = true then (scheduleHeader (s.inUse .shiftSchedule)).brakeOffset else 0 : Nat)

/-- What the schedule calls for at place `p`. -/
def State.scheduleCallAt (s : State) (a p : Nat) : ScheduleResult :=
  scheduleCall (scheduleHeader (s.inUse .shiftSchedule)) (scheduleUp (s.inUse .shiftSchedule) a)
    (scheduleDown (s.inUse .shiftSchedule) a) p (s.ladderOf .f).length (s.shown engSpeed) (s.shown throttle)
    s.motion.record.coupled

theorem State.scheduleCallAt_eq (s : State) (a p : Nat) : s.scheduleCallAt a p =
    if s.CallsUp a p then .up else if s.CallsDown a p then .down else .none := by
  have offset : ((if s.motion.record.coupled = true then (scheduleHeader (s.inUse .shiftSchedule)).brakeOffset else 0 : Nat) :
      Int) = if s.motion.record.coupled then ((scheduleHeader (s.inUse .shiftSchedule)).brakeOffset : Int) else 0 :=
    by split <;> rfl
  simp only [State.scheduleCallAt, scheduleCall, State.CallsUp, State.CallsDown, offset]

/-- The selector after the deferral timer stops and the target moves. -/
def Gear.scheduled (g : Gear) (c : Nat) : Gear := { g with deferral := .stopped, ownTarget := some c }

/-- An order that the schedule test issues. -/
def State.scheduleMove (s : State) (a c : Nat) : State := ({ s with gear := s.gear.scheduled c } : State).issueSwap a c

theorem State.scheduleMove_moves (s : State) (a c : Nat) : (s.scheduleMove a c).gear = s.gear.scheduled c ∧
    SwapToward { s with gear := (s.scheduleMove a c).gear } (s.scheduleMove a c) a c := by
  obtain ⟨gear, toward⟩ := ({ s with gear := s.gear.scheduled c } : State).issueSwap_toward a c
  have same : (s.scheduleMove a c).gear = s.gear.scheduled c := gear
  exact ⟨same, same.symm ▸ toward⟩

theorem State.scheduleTest_off (current : s.gear.current = some a) (off : a ∉ s.ladderOf .f) : s.scheduleTest = s := by
  simp only [State.scheduleTest, current, placeOn_none_iff.2 off]

/-- The schedule test in F, on the ladder. -/
theorem State.scheduleTest_on (forward : s.gear.dirState = .f) (current : s.gear.current = some a)
    (place : (s.ladderOf .f)[i]? = some a) : s.scheduleTest =
      if s.CallsUp a i then s.scheduleMove a ((s.ladderOf .f).getD (i + 1) a)
      else if s.CallsDown a i then
        if s.hitch.correcting = true ∧ s.gear.deferral ≠ .expired ∧ (scheduleHeader (s.inUse .shiftSchedule)).deferMs ≠ 0 then
          if s.gear.deferral = .stopped then { s with gear := { s.gear with
            deferral := .running (s.after (scheduleHeader (s.inUse .shiftSchedule)).deferMs) } } else s
        else s.scheduleMove a ((s.ladderOf .f).getD (i - 1) a)
      else { s with gear := { s.gear with deferral := .stopped } } := by
  have target (c : Nat) : ({ s.gear with deferral := .stopped } : Gear).withTarget (some c) = s.gear.scheduled c := by
    simp only [Gear.withTarget, Gear.scheduled, forward]
  have call := s.scheduleCallAt_eq a i
  rw [State.scheduleCallAt] at call
  rw [State.scheduleTest]
  split
  next none => exact absurd (none.symm.trans current) nofun
  next c found =>
    obtain rfl : c = a := Option.some.inj (found.symm.trans current)
    simp only [s.placeOn_ladder place, call]
    by_cases up : s.CallsUp c i
    · simp only [if_pos up, State.withGear, target]
      rfl
    · by_cases down : s.CallsDown c i
      · simp only [if_neg up, if_pos down, State.withGear, target]
        rfl
      · simp only [if_neg up, if_neg down, State.withGear]

/-- Case 6 with the target reached. -/
theorem State.decideEngaged_reached (current : s.gear.current = some a) (target : s.gear.target = some a) (byMotion : Bool) :
    s.decideEngaged byMotion = if byMotion = true ∧ s.gear.dirState = .f ∧ s.intake.record.shiftMode = .auto ∧
      s.gear.holdOff = none then s.scheduleTest else s := by
  have still : running s.gear.holdOff = false ↔ s.gear.holdOff = none := Option.isSome_eq_false_iff.trans Option.isNone_iff_eq_none
  simp only [State.decideEngaged, current, target, still, ne_eq, not_true, if_false]

theorem State.decideEngaged_moves (current : s.gear.current = some a) (target : s.gear.target = some b) (other : a ≠ b)
    (byMotion : Bool) : s.decideEngaged byMotion = s.issueSwap a b := by
  simp only [State.decideEngaged, current, target, ne_eq, Ne.symm other, not_false_eq_true, if_true]

theorem engagedLaw : EngagedLaw := by
  intro byMotion s idle
  refine ⟨?_, fun a b current target => ⟨fun other => ?_, ?_, ?_⟩⟩
  · intro none
    rw [State.decideEngaged]
    obtain none | none := none
    · rw [none]
    · rw [none]
      cases s.gear.target <;> rfl
  · rw [State.decideEngaged_moves current target other]
    exact s.issueSwap_toward a b
  · rintro rfl out
    rw [State.decideEngaged_reached current target]
    split
    next tested => exact State.scheduleTest_off current (out.resolve_left (not_not_intro tested))
    next => rfl
  · rintro p rfl tested place
    rw [State.decideEngaged_reached current target, if_pos tested, State.scheduleTest_on tested.2.1 current place]
    refine ⟨fun up c next => ?_, fun up down defers c next => ?_, fun up down defers => ?_, fun up down => ?_⟩
    · rw [if_pos up, getD_of_get next]
      exact s.scheduleMove_moves a c
    · rw [if_neg up, if_pos down, if_neg defers, getD_of_get next]
      exact s.scheduleMove_moves a c
    · rw [if_neg up, if_pos down, if_pos defers]
      split <;> rfl
    · rw [if_neg up, if_neg down]

end

end Sys2Proof.Machine

/-! ### Decisions of the Gear Selector (R45, R47 to R49, R51, R52, R80, R81) -/

namespace Sys2Proof.Machine

section

variable {s t : State} {d x y : Dir} {q : DirState} {g : Gear} {o : Order}

/-! ### Directions and preselections -/

theorem DirState.dir?_none : q.dir? = none ↔ q = .n := by
  cases q <;> simp [DirState.dir?]

theorem DirState.dir?_some : q.dir? = some d ↔ q = d.state := by
  cases q <;> cases d <;> simp [DirState.dir?, Dir.state]

theorem Dir.state_inj : x.state = y.state ↔ x = y := by
  cases x <;> cases y <;> simp [Dir.state]

theorem Dir.state_ne_n (d : Dir) : d.state ≠ .n := by
  cases d <;> exact DirState.noConfusion

theorem Gear.pre_eq (g : Gear) (d : Dir) : g.pre d = if d = .f then g.preF else g.preR := by
  cases d <;> rfl

theorem Gear.setDir_n (h : g.dirState = d.state) :
    g.setDir .n = { g with dirState := .n, deferral := if d = .f then .stopped else g.deferral } := by
  cases d <;> simp [Gear.setDir, h, Dir.state]

theorem Gear.released_eq (h : g.dirState = d.state) (ref : Option Nat) : g.released d ref = { g with
    dirState := .n, presel := d, preF := if d = .f then ref else g.preF, preR := if d = .r then ref else g.preR,
    deferral := if d = .f then .stopped else g.deferral } := by
  rw [Gear.released, Gear.setDir_n h]
  cases d <;> rfl

/-- The selector at the issue of a SHUTTLE (R51). -/
theorem Gear.shuttling_eq (h : g.dirState = y.state) :
    ({ ((g.setDir .n).withPre y g.current).dropShuttle with presel := x } : Gear) = { g with
      dirState := .n, presel := x, preF := if y = .f then g.current else g.preF,
      preR := if y = .r then g.current else g.preR, shuttle := none, flag := .none,
      deferral := if y = .f then .stopped else g.deferral } := by
  rw [Gear.setDir_n h]
  cases y <;> rfl

theorem Gear.withTarget_current (g : Gear) (c : Option Nat) : (g.withTarget c).current = g.current := by
  rw [Gear.withTarget]
  cases g.dirState with
  | f | r => rfl
  | n => cases g.presel <;> rfl

theorem State.keepTarget_current (s : State) : s.keepTarget.gear.current = s.gear.current := by
  rw [State.keepTarget]
  split
  · exact Gear.withTarget_current ..
  · rfl

/-! ### A RELEASE handed to the order in flight (R48, R80, R81) -/

/-- An engagement that ends with its dump. -/
theorem State.endEngagement_cases (s : State) (o : Order) :
    let t := s.endEngagement o
    let ended := { o with phase := .dump, count := 0, ending := true, dump := none }
    (o.ending = true → t = s) ∧
    (o.ending = false → o.phase = .waitSupply → t = s.shiftWithdraw.orderEnd o .aborted 0) ∧
    (o.ending = false → o.phase = .fill → t = (s.withOrder ended).shiftGiveBack) ∧
    (o.ending = false → o.phase ≠ .waitSupply → o.phase ≠ .fill → t = s.withOrder ended) := by
  intro t ended
  refine ⟨fun ends => if_pos ends, fun on wait => ?_, fun on fill => ?_, fun on noWait noFill => ?_⟩
  all_goals
    have goesOn : ¬o.ending = true := Bool.eq_false_iff.1 on
    refine (if_neg goesOn).trans ?_
  · simp only [wait]
  · simp only [fill, ended]
  · cases phase : o.phase with
    | waitSupply => exact absurd phase noWait
    | fill => exact absurd phase noFill
    | prepare | overlap | sync | lock | ramp | dump => simp only [ended]

/-- The release of an engagement, in the words of `HandedReleaseLaw`. -/
theorem State.endEngagement_law (s : State) (o : Order) :
    let t := s.endEngagement o
    let with' := fun n : Order => { s with shift := { s.shift with order := some n } }
    let ended := fun n : Order => n = { o with phase := .dump, count := 0, ending := true, dump := none }
    (o.ending = true → t = s) ∧
    (o.ending = false → o.phase = .waitSupply →
      t = ({ s with arbiter := { s.arbiter with shiftWait := none } } : State).decideFill.orderEnd o .aborted 0) ∧
    (o.ending = false → o.phase = .fill → ∃ n, ended n ∧
      t = ({ with' n with arbiter := s.arbiter.giveBack .shift } : State).decideFill) ∧
    (o.ending = false → o.phase ≠ .waitSupply → o.phase ≠ .fill → ∃ n, ended n ∧ t = with' n) := by
  obtain ⟨off, wait, fill, rest⟩ := s.endEngagement_cases o
  exact ⟨off, wait, fun on phase => ⟨_, rfl, fill on phase⟩, fun on noWait noFill => ⟨_, rfl, rest on noWait noFill⟩⟩

theorem State.releaseOrder_engagement (engages : o.kind = .engage ∨ o.kind = .shuttle ∧ o.sub = .engage) :
    s.releaseOrder o = s.endEngagement o := by
  obtain kind | ⟨kind, sub⟩ := engages
  · simp only [State.releaseOrder, kind]
  · simp only [State.releaseOrder, kind, sub]

theorem handedReleaseLaw : HandedReleaseLaw := by
  intro s o
  have engagement (engages : o.kind = .engage ∨ o.kind = .shuttle ∧ o.sub = .engage) :=
    (State.releaseOrder_engagement (s := s) engages).symm ▸ s.endEngagement_law o
  revert engagement
  cases kind : o.kind with
  | swap1 | swap2 =>
    refine fun _ => ⟨fun none => ?_, fun d merged dir => ?_⟩
    · simp only [State.releaseOrder, kind]
      obtain merged | neutral := none
      · split
        next none _ => exact absurd none merged
        next => rfl
      · rw [DirState.dir?_none.2 neutral]
        split
        next found => exact absurd found nofun
        next => rfl
    · simp only [State.releaseOrder, kind, merged, DirState.dir?_some.2 dir, State.withGear, State.withOrder,
        Gear.released_eq dir]
  | engage => exact fun engagement => engagement (.inl rfl)
  | release | free => exact fun _ => by simp only [State.releaseOrder, kind]
  | shuttle =>
    cases sub : o.sub with
    | dump | free => exact fun _ => by simp only [State.releaseOrder, kind, sub, State.withGear, State.withOrder]
    | engage => exact fun engagement => engagement (.inr ⟨rfl, rfl⟩)

/-! ### Decisions (R45, R47 to R49, R51, R52) -/

theorem State.decideInFlight_law (s : State) (o : Order) :
    let q := s.intake.record.direction
    let released := q = .n ∨ o.kind = .shuttle ∧ o.sub = .dump ∧ q = o.origin.state
    (released → s.decideInFlight o = s.releaseOrder o) ∧ (¬released → s.decideInFlight o = s) := by
  intro q released
  rw [State.decideInFlight]
  cases request : s.intake.record.direction.dir? with
  | none =>
    have neutral : released := .inl (DirState.dir?_none.1 request)
    exact ⟨fun _ => rfl, fun not => absurd neutral not⟩
  | some x =>
    have asked := DirState.dir?_some.1 request
    have back : released ↔ o.kind = .shuttle ∧ o.sub = .dump ∧ x = o.origin := by
      refine ⟨?_, fun ⟨kind, sub, same⟩ => .inr ⟨kind, sub, asked.trans (congrArg Dir.state same)⟩⟩
      rintro (neutral | ⟨kind, sub, same⟩)
      · exact absurd (asked.symm.trans neutral) x.state_ne_n
      · exact ⟨kind, sub, Dir.state_inj.1 (asked.symm.trans same)⟩
    exact ⟨fun h => if_pos (back.1 h), fun h => if_neg (mt back.2 h)⟩

/-- Case 1: the RELEASE of the engaged direction (R48). -/
theorem State.issueRelease_law (h : s.gear.dirState = d.state) :
    (s.issueRelease d).gear = { s.gear with
      dirState := .n, presel := d, preF := if d = .f then s.gear.current else s.gear.preF,
      preR := if d = .r then s.gear.current else s.gear.preR, deferral := if d = .f then .stopped else s.gear.deferral } ∧
    Issued s (s.issueRelease d) .release s.gear.current s.gear.current d d := by
  have same := Gear.released_eq h s.gear.current
  rw [State.issueRelease]
  refine ⟨(State.takeOrder_gear ..).trans same, ?_⟩
  have issued := State.takeOrder_issued (s.withGear fun g => g.released d g.current) .release s.gear.current s.gear.current d d
  have current : (s.withGear fun g => g.released d g.current).gear.current = s.gear.current :=
    (congrArg Gear.current same).trans rfl
  rw [current]
  exact issued.ofGear

/-- Case 2 (R47). -/
theorem State.requestInN_law (s : State) (x : Dir) :
    let u := ({ s with gear := { s.gear with presel := x } } : State).keepTarget
    let dest := if x = .f then u.gear.preF else u.gear.preR
    ((if x = .f then s.gear.preF else s.gear.preR) = none → s.requestInN x = s) ∧
    ((if x = .f then s.gear.preF else s.gear.preR) ≠ none → (s.requestInN x).gear = u.gear ∧
      Issued u (s.requestInN x) (if s.gear.current = dest then .engage else .free) s.gear.current dest x x) := by
  intro u dest
  rw [← Gear.pre_eq]
  refine ⟨fun none => if_pos none, fun some' => ?_⟩
  have issues : s.requestInN x =
      u.takeOrder (if u.gear.current = u.gear.pre x then .engage else .free) u.gear.current (u.gear.pre x) x x := if_neg some'
  have current : u.gear.current = s.gear.current := State.keepTarget_current _
  rw [issues, Gear.pre_eq, current]
  exact ⟨u.takeOrder_gear .., u.takeOrder_issued ..⟩

/-- The SHUTTLE (R51). -/
theorem State.issueShuttle_law (other : x ≠ y) (h : s.gear.dirState = y.state) :
    (s.issueShuttle x y).gear = { s.gear with
      dirState := .n, presel := x, preF := if y = .f then s.gear.current else s.gear.preF,
      preR := if y = .r then s.gear.current else s.gear.preR, shuttle := none, flag := .none,
      deferral := if y = .f then .stopped else s.gear.deferral } ∧
    Issued s (s.issueShuttle x y) .shuttle s.gear.current (if x = .f then s.gear.preF else s.gear.preR) x y := by
  have same := Gear.shuttling_eq (x := x) h
  rw [State.issueShuttle]
  refine ⟨(State.takeOrder_gear ..).trans same, ?_⟩
  have issued := State.takeOrder_issued
    (s.withGear fun g => { ((g.setDir .n).withPre y g.current).dropShuttle with presel := x }) .shuttle s.gear.current
    (if x = .f then s.gear.preF else s.gear.preR) x y
  have current : (s.withGear fun g => { ((g.setDir .n).withPre y g.current).dropShuttle with presel := x }).gear.current =
      s.gear.current :=
    (congrArg Gear.current same).trans rfl
  have pre : (s.withGear fun g => { ((g.setDir .n).withPre y g.current).dropShuttle with presel := x }).gear.pre x =
      if x = .f then s.gear.preF else s.gear.preR := by
    refine (congrArg (fun g : Gear => g.pre x) same).trans ?_
    cases x with
    | f =>
      cases y with
      | f => exact absurd rfl other
      | r => rfl
    | r =>
      cases y with
      | f => rfl
      | r => exact absurd rfl other
  rw [current, pre]
  exact issued.ofGear

/-- Cases 3 to 6: a request with a direction engaged (R45, R51, R52). -/
theorem State.decideRequest_law (h : s.gear.dirState = y.state) (byMotion : Bool) :
    let t := s.decideRequest byMotion x y
    let g := s.gear
    let dest := if x = .f then g.preF else g.preR
    let slow := s.motion.record.vg ≤ ((gearHeader s.gearWords).speedLimit : Int)
    (x = y ∨ g.flag = .dropped → t = s.decideEngaged byMotion) ∧
    (x ≠ y → g.flag ≠ .dropped → dest ≠ none → slow →
      t.gear = { g with dirState := .n, presel := x, preF := if y = .f then g.current else g.preF,
                        preR := if y = .r then g.current else g.preR, shuttle := none, flag := .none,
                        deferral := if y = .f then .stopped else g.deferral } ∧
      Issued s t .shuttle g.current dest x y) ∧
    (x ≠ y → g.flag ≠ .dropped → dest ≠ none → ¬ slow →
      t = (if g.shuttle ≠ none then s else { s with gear := { g with
        shuttle := some ⟨x, s.now, some (s.now + (gearHeader s.gearWords).pendingMs * Config.msTicks)⟩,
        flag := .pending } } : State).decideEngaged byMotion) := by
  intro t g dest slow
  have turns (other : x ≠ y) (free : g.flag ≠ .dropped) (some' : dest ≠ none) :
      t = if slow then s.issueShuttle x y else (s.keepShuttle x).decideEngaged byMotion := by
    have pre : g.pre x = dest := g.pre_eq x
    refine (if_neg (not_or.2 ⟨other, free⟩)).trans ?_
    split
    next none => exact absurd (pre.symm.trans none) some'
    next => rfl
  refine ⟨fun same => if_pos same, fun other free some' low => ?_, fun other free some' high => ?_⟩
  · rw [turns other free some', if_pos low]
    exact State.issueShuttle_law other h
  · rw [turns other free some', if_neg high]
    refine congrArg (State.decideEngaged byMotion) ?_
    rw [State.keepShuttle]
    cases s.gear.shuttle <;> rfl

theorem State.decideIdle_run (run : s.mode.op = .run) (byMotion : Bool) : s.decideIdle byMotion =
    match s.intake.record.direction.dir?, s.gear.dirState.dir? with
    | none, some y => s.issueRelease y
    | some x, none => s.requestInN x
    | some x, some y => s.decideRequest byMotion x y
    | none, none => s.decideFree := by
  rw [State.decideIdle, run] <;> rfl

theorem selectorLaw : SelectorLaw := by
  intro byMotion s
  refine ⟨fun o order => ?_, fun idle => ?_⟩
  · obtain ⟨hands, stays⟩ := s.decideInFlight_law o
    have step : s.gearDecide byMotion = if s.mode.op = .run then s.decideInFlight o else s := by
      simp only [State.gearDecide, order]
    rw [step]
    refine ⟨fun run released => (if_pos run).trans (hands released), ?_⟩
    rintro (notRun | kept)
    · exact if_neg notRun
    · rw [stays kept, ite_self]
  · have step : s.gearDecide byMotion = s.decideIdle byMotion := by simp only [State.gearDecide, idle]
    rw [step]
    refine ⟨fun notRun notSetup => ?_, fun setup => ?_, fun run => ?_⟩
    · rw [State.decideIdle]
      split
      next setup => exact absurd setup notSetup
      next run => exact absurd run notRun
      all_goals rfl
    · have case5 : s.decideIdle byMotion = if s.gear.dirState = .n then s.decideFree else s := by
        simp only [State.decideIdle, setup]
      rw [case5]
      exact ⟨fun engaged => if_neg engaged, fun neutral => (if_pos neutral).symm ▸ s.decideFree_case⟩
    · have decision := s.decideIdle_run run byMotion
      refine ⟨fun none neutral => ?_, fun d none dir => ?_, fun x asked neutral => ?_, fun x y asked dir => ?_⟩
      · rw [decision, DirState.dir?_none.2 none, DirState.dir?_none.2 neutral]
        exact s.decideFree_case
      · rw [decision, DirState.dir?_none.2 none, DirState.dir?_some.2 dir]
        exact State.issueRelease_law dir
      · rw [decision, DirState.dir?_some.2 asked, DirState.dir?_none.2 neutral]
        exact s.requestInN_law x
      · rw [decision, DirState.dir?_some.2 asked, DirState.dir?_some.2 dir]
        exact State.decideRequest_law dir byMotion

end

end Sys2Proof.Machine

/-! ### The target (R40, R44, R57, R58, R78) -/

namespace Sys2Proof.Machine

section

variable {s t : State} {l : List Nat} {o : Order} {a b p q r x y z n : Nat} {c : Option Nat}

/-! ### Where the target stands (R40) -/

theorem Gear.target_withTarget (g : Gear) (c : Option Nat) : (g.withTarget c).target = c := by
  obtain ⟨dirState, presel⟩ := g
  cases dirState with
  | f | r => rfl
  | n => cases presel <;> rfl

theorem Gear.withTarget_self (g : Gear) : g.withTarget g.target = g := by
  obtain ⟨dirState, presel⟩ := g
  cases dirState with
  | f | r => rfl
  | n => cases presel <;> rfl

theorem Gear.withTarget_engaged {g : Gear} (h : g.dirState ≠ .n) (c : Option Nat) :
    g.withTarget c = { g with ownTarget := c } ∧ g.target = g.ownTarget := by
  obtain ⟨dirState⟩ := g
  cases dirState with
  | f | r => exact ⟨rfl, rfl⟩
  | n => exact absurd rfl h

theorem Gear.withTarget_neutral {g : Gear} (h : g.dirState = .n) (c : Option Nat) :
    g.withTarget c = g.withPre g.presel c ∧ g.target = g.pre g.presel := by
  obtain ⟨dirState, presel⟩ := g
  obtain rfl : dirState = .n := h
  cases presel <;> exact ⟨rfl, rfl⟩

/-! ### The reference gear and the place it sets (R48, R57) -/

theorem OrderKind.isSwap_iff {k : OrderKind} : k.isSwap = true ↔ k = .swap1 ∨ k = .swap2 := by
  cases k <;> simp [OrderKind.isSwap]

theorem State.referenceGear_eq (s : State) : s.referenceGear = match s.shift.order with
    | some o => if o.kind = .swap1 ∨ o.kind = .swap2 then o.toGear else s.gear.current
    | none => s.gear.current := by
  rw [State.referenceGear]
  cases s.shift.order with
  | none => rfl
  | some o => exact ite_of_iff OrderKind.isSwap_iff

theorem placed_none_iff : c.bind (placeOn l) = none ↔ ∀ x ∈ l, c ≠ some x := by
  cases c with
  | none => exact ⟨fun _ _ _ => nofun, fun _ => rfl⟩
  | some a =>
    refine placeOn_none_iff.trans ⟨fun off x mem same => off (Option.some.inj same ▸ mem), fun h mem => h a mem rfl⟩

/-- While coupled braking is 1 the reference gear stands on the ladder. -/
abbrev State.Stops (s : State) (l : List Nat) : Prop := s.motion.record.coupled = true ∧ ∃ x ∈ l, s.referenceGear = some x

theorem State.limitPlace_free (h : ¬s.Stops l) (q : Nat) : s.limitPlace l q = q := by
  rw [State.limitPlace]
  split
  next braking =>
    have off : s.referenceGear.bind (placeOn l) = none := placed_none_iff.2 fun x mem same => h ⟨braking, x, mem, same⟩
    rw [off]
  next => rfl

theorem State.limitPlace_stops (braking : s.motion.record.coupled = true) (sorted : l.Pairwise (· < ·))
    (ref : s.referenceGear = some z) (place : l[r]? = some z) (q : Nat) : s.limitPlace l q = min q r := by
  have found : s.referenceGear.bind (placeOn l) = some r := by rw [ref]; exact placeOn_of_get sorted place
  rw [State.limitPlace, if_pos braking, found]

theorem State.targetLadder_sorted (s : State) : s.targetLadder.Pairwise (· < ·) := ladder_sorted _ _

theorem State.placed_on (h : c = some x) (place : s.targetLadder[p]? = some x) :
    c.bind (placeOn s.targetLadder) = some p := by
  rw [h]
  exact placeOn_of_get s.targetLadder_sorted place

/-! ### The move of the target (R45, R78) -/

theorem State.handTarget_same (h : s.gear.target = c) : s.handTarget c = s := if_pos h

theorem State.handTarget_idle (h : s.gear.target ≠ c) (idle : s.shift.order = none) :
    s.handTarget c = { s with gear := s.gear.withTarget c } := by
  rw [State.handTarget, if_neg h]
  simp only [State.withGear, idle]

theorem State.handTarget_order (h : s.gear.target ≠ c) (order : s.shift.order = some o) : s.handTarget c =
    if (o.kind = .swap1 ∨ o.kind = .swap2) ∧ o.merged = none ∧ c = o.fromGear
    then ({ s with gear := s.gear.withTarget c } : State).abortSwap o else { s with gear := s.gear.withTarget c } := by
  rw [State.handTarget, if_neg h]
  simp only [State.withGear, order]
  exact ite_of_iff (and_congr_left fun _ => OrderKind.isSwap_iff)

theorem State.abortSwap_withdraws (wait : o.phase = .waitSupply) :
    s.abortSwap o = s.shiftWithdraw.orderEnd o .aborted 0 := by
  simp only [State.abortSwap, wait]

theorem State.abortSwap_givesBack (fills : o.phase = .prepare ∨ o.phase = .fill) :
    s.abortSwap o = s.closeWindow.shiftGiveBack.orderEnd o .aborted 0 := by
  obtain phase | phase := fills <;> simp only [State.abortSwap, phase]

theorem State.abortSwap_late (h : o.phase ≠ .waitSupply ∧ o.phase ≠ .prepare ∧ o.phase ≠ .fill) : s.abortSwap o = s := by
  obtain ⟨wait, prepare, fill⟩ := h
  rw [State.abortSwap]
  cases phase : o.phase with
  | waitSupply => exact absurd phase wait
  | prepare => exact absurd phase prepare
  | fill => exact absurd phase fill
  | overlap | sync | lock | ramp | dump => rfl

/-! ### Presses (R44) -/

theorem State.pressTarget_off (h : s.mode.op ≠ .run ∨ p = q ∨ ∀ x ∈ s.targetLadder, s.gear.target ≠ some x) :
    s.pressTarget p q = s := by
  rw [State.pressTarget]
  split
  next moves =>
    have off := (h.resolve_left (not_not_intro moves.1)).resolve_left moves.2
    refine State.handTarget_same ?_
    rw [State.movedTarget, placed_none_iff.2 off]
  next => rfl

/-- A target on the ladder that moves by `n` places. -/
theorem State.movedTarget_on (target : s.gear.target = some x) (place : s.targetLadder[p]? = some x) (n : Int) :
    s.movedTarget n = some (s.targetLadder.getD
      (let q := (clamp 0 ((s.targetLadder.length : Int) - 1) ((p : Int) + n)).toNat
       if 0 < n then s.limitPlace s.targetLadder q else q) 0) := by
  simp only [State.movedTarget, State.placed_on target place]

theorem State.pressTarget_on (run : s.mode.op = .run) (differ : a ≠ b) :
    s.pressTarget a b = s.handTarget (s.movedTarget ((a : Int) - b)) := if_pos ⟨run, differ⟩

/-- More ups than downs. -/
theorem State.pressTarget_up (run : s.mode.op = .run) (target : s.gear.target = some x)
    (place : s.targetLadder[p]? = some x) (up : b < a) : s.pressTarget a b = s.handTarget (some (s.targetLadder.getD
      (s.limitPlace s.targetLadder (min (p + (a - b)) (s.targetLadder.length - 1))) 0)) := by
  have inside := (List.getElem?_eq_some_iff.1 place).1
  have goal : (clamp 0 ((s.targetLadder.length : Int) - 1) ((p : Int) + ((a : Int) - b))).toNat =
      min (p + (a - b)) (s.targetLadder.length - 1) := by
    simp only [clamp]
    omega
  have positive : (0 : Int) < (a : Int) - b := by omega
  rw [State.pressTarget_on run (Nat.ne_of_gt up), State.movedTarget_on target place, goal, if_pos positive]

/-- More downs than ups. -/
theorem State.pressTarget_down (run : s.mode.op = .run) (target : s.gear.target = some x)
    (place : s.targetLadder[p]? = some x) (down : a < b) : s.pressTarget a b = s.handTarget (some (s.targetLadder.getD
      (p - (b - a)) 0)) := by
  have inside := (List.getElem?_eq_some_iff.1 place).1
  have goal : (clamp 0 ((s.targetLadder.length : Int) - 1) ((p : Int) + ((a : Int) - b))).toNat = p - (b - a) := by
    simp only [clamp]
    omega
  have negative : ¬(0 : Int) < (a : Int) - b := by omega
  rw [State.pressTarget_on run (Nat.ne_of_lt down), State.movedTarget_on target place, goal, if_neg negative]

/-! ### Coupled braking and the headland (R57, R58) -/

theorem State.keepTarget_free (h : s.motion.record.coupled = false) : s.keepTarget = s :=
  if_neg (Bool.eq_false_iff.1 h)

/-- The target under coupled braking falls to the reference gear. -/
theorem State.keepTarget_braking (braking : s.motion.record.coupled = true) (target : s.gear.target = some x)
    (place : s.targetLadder[p]? = some x) (ref : s.referenceGear = some z) (stop : s.targetLadder[r]? = some z) :
    s.keepTarget.gear = if r < p then s.gear.withTarget (some z) else s.gear := by
  have held : s.heldTarget = if r < p then some z else s.gear.target := by
    simp only [State.heldTarget, State.placed_on target place, State.placed_on ref stop, stop]
  have keeps : s.keepTarget = s.withGear (·.withTarget s.heldTarget) := if_pos braking
  rw [keeps, held]
  split
  · rfl
  · exact s.gear.withTarget_self

/-- The target of a headland change is the gear itself, but where the braking stops its way up. -/
theorem State.headlandTarget_free
    (h : ¬s.Stops s.targetLadder ∨ b ∉ s.targetLadder ∨ ∀ x ∈ s.targetLadder, s.gear.target ≠ some x) :
    s.headlandTarget b = s.handTarget (some b) := by
  refine congrArg (fun c => s.handTarget (some c)) ?_
  obtain free | off | off := h
  · split
    next p q _ place =>
      rw [State.limitPlace_free free, getD_of_get (placeOn_some place), ite_self]
    next => rfl
  · rw [placeOn_none_iff.2 off]
    cases s.gear.target.bind (placeOn s.targetLadder) <;> rfl
  · rw [placed_none_iff.2 off]

theorem State.headlandTarget_on (target : s.gear.target = some x) (place : s.targetLadder[p]? = some x)
    (goal : s.targetLadder[q]? = some b) : s.headlandTarget b = s.handTarget (some
      (if p < q then s.targetLadder.getD (s.limitPlace s.targetLadder q) b else b)) := by
  simp only [State.headlandTarget, State.placed_on target place, placeOn_of_get s.targetLadder_sorted goal]

theorem State.headlandOut_off
    (h : s.mode.op ≠ .run ∨ s.gear.dirState = .n ∨ ∀ x ∈ s.targetLadder, s.gear.current ≠ some x) : s.headlandOut = s := by
  rw [State.headlandOut]
  split
  next d p engaged found =>
    refine if_neg fun run => ?_
    obtain neutral | off := h.resolve_left (not_not_intro run)
    · exact absurd (engaged.symm.trans (DirState.dir?_none.2 neutral)) nofun
    · exact absurd (found.symm.trans (placed_none_iff.2 off)) nofun
  next => rfl

theorem DirState.dir?_of_engaged {q : DirState} (h : q ≠ .n) : ∃ d, q.dir? = some d := by
  cases q with
  | n => exact absurd rfl h
  | f => exact ⟨.f, rfl⟩
  | r => exact ⟨.r, rfl⟩

theorem State.headlandOut_on (run : s.mode.op = .run) (engaged : s.gear.dirState ≠ .n)
    (current : s.gear.current = some a) (place : s.targetLadder[p]? = some a) : s.headlandOut =
      (s.headlandTarget (s.targetLadder.getD (p - (gearHeader s.gearWords).kHl) 0)).gearDecide false := by
  obtain ⟨d, dir⟩ := DirState.dir?_of_engaged engaged
  rw [State.headlandOut]
  simp only [dir, State.placed_on current place]
  exact if_pos run

theorem State.headlandIn_off (saved : Option Nat) (d : DirState) (h : s.mode.op ≠ .run ∨ s.gear.dirState = .n) :
    s.headlandIn saved d = s := by
  unfold State.headlandIn
  split
  next => rfl
  next run => rw [DirState.dir?_none.2 (h.resolve_left run)]

theorem State.headlandIn_on (run : s.mode.op = .run) (engaged : s.gear.dirState ≠ .n) (saved : Option Nat) (d : DirState) :
    (saved = none ∨ d ≠ s.gear.dirState → s.headlandIn saved d = s.gearDecide false) ∧
    ∀ b, d = s.gear.dirState → saved = some b → s.headlandIn saved d = (s.headlandTarget b).gearDecide false := by
  obtain ⟨e, dir⟩ := DirState.dir?_of_engaged engaged
  have reads : s.headlandIn saved d = match saved with
      | none => s.gearDecide false
      | some g => if s.gear.dirState = d then (s.headlandTarget g).gearDecide false else s.gearDecide false := by
    unfold State.headlandIn
    rw [if_neg (not_not_intro run), dir]
    cases saved <;> rfl
  rw [reads]
  refine ⟨fun h => ?_, fun b same some' => ?_⟩
  · cases saved with
    | none => rfl
    | some g => exact if_neg fun same => h.elim nofun fun other => other same.symm
  · subst some'
    exact if_pos same.symm

/-! ### The law -/

/-- What the move of the target does (R45, R78). -/
theorem State.handTarget_law (s : State) (c : Option Nat) :
    let t := s.handTarget c
    let u := { s with gear := s.gear.withTarget c }
    let mind := fun o : Order => (o.kind = .swap1 ∨ o.kind = .swap2) ∧ o.merged = none ∧ c = o.fromGear
    (s.gear.target = c → t = s) ∧
    (s.gear.target ≠ c → s.shift.order = none → t = u) ∧
    ∀ o, s.gear.target ≠ c → s.shift.order = some o →
      (¬ mind o ∨ o.phase ≠ .waitSupply ∧ o.phase ≠ .prepare ∧ o.phase ≠ .fill → t = u) ∧
      (mind o → o.phase = .waitSupply →
        t = ({ u with arbiter := { u.arbiter with shiftWait := none } } : State).decideFill.orderEnd o .aborted 0) ∧
      (mind o → o.phase = .prepare ∨ o.phase = .fill →
        t = (let w := u.closeWindow; { w with arbiter := w.arbiter.giveBack .shift } : State).decideFill.orderEnd o
          .aborted 0) := by
  intro t u mind
  refine ⟨State.handTarget_same, State.handTarget_idle, fun o other order => ?_⟩
  have step : t = if mind o then u.abortSwap o else u := State.handTarget_order other order
  rw [step]
  refine ⟨?_, fun same wait => ?_, fun same fills => ?_⟩
  · rintro (kept | late)
    · exact if_neg kept
    · rw [State.abortSwap_late late, ite_self]
  · rw [if_pos same, State.abortSwap_withdraws wait]
    rfl
  · rw [if_pos same, State.abortSwap_givesBack fills]
    rfl

/-- Presses (R44, R57). -/
theorem State.pressTarget_law (s : State) (ups downs : Nat) :
    let t := s.pressTarget ups downs
    let l := s.targetLadder
    (s.mode.op ≠ .run ∨ ups = downs ∨ (∀ x ∈ l, s.gear.target ≠ some x) → t = s) ∧
    ∀ (p : Nat) (x y : Nat), s.mode.op = .run → ups ≠ downs → s.gear.target = some x → l[p]? = some x →
      (downs < ups →
        (¬ s.Stops l → l[min (p + (ups - downs)) (l.length - 1)]? = some y → t = s.handTarget (some y)) ∧
        (∀ (r z : Nat), s.motion.record.coupled = true → s.referenceGear = some z → l[r]? = some z →
          l[min (min (p + (ups - downs)) (l.length - 1)) r]? = some y → t = s.handTarget (some y))) ∧
      (ups < downs → l[p - (downs - ups)]? = some y → t = s.handTarget (some y)) := by
  refine ⟨State.pressTarget_off, fun p x y run _ target place => ⟨fun up => ⟨fun free goal => ?_, ?_⟩, fun down goal => ?_⟩⟩
  · rw [State.pressTarget_up run target place up, State.limitPlace_free free, getD_of_get goal]
  · intro r z braking ref stop goal
    rw [State.pressTarget_up run target place up, State.limitPlace_stops braking s.targetLadder_sorted ref stop,
      getD_of_get goal]
  · rw [State.pressTarget_down run target place down, getD_of_get goal]

/-- The headland targets (R57, R58). -/
theorem State.headlandTarget_law (s : State) (b : Nat) :
    let t := s.headlandTarget b
    let l := s.targetLadder
    (¬ s.Stops l ∨ b ∉ l ∨ (∀ x ∈ l, s.gear.target ≠ some x) → t = s.handTarget (some b)) ∧
    ∀ (p j r : Nat) (x z y : Nat), s.motion.record.coupled = true → s.gear.target = some x → l[p]? = some x →
      l[j]? = some b → s.referenceGear = some z → l[r]? = some z → l[if p < j then min j r else j]? = some y →
      t = s.handTarget (some y) := by
  refine ⟨State.headlandTarget_free, fun p j r x z y braking target place goal ref stop reached => ?_⟩
  rw [State.headlandTarget_on target place goal, State.limitPlace_stops braking s.targetLadder_sorted ref stop]
  refine congrArg (fun c => s.handTarget (some c)) ?_
  by_cases up : p < j
  · rw [if_pos up] at reached ⊢
    exact getD_of_get reached
  · rw [if_neg up] at reached ⊢
    exact Option.some.inj (goal.symm.trans reached)

theorem targetLaw : TargetLaw := by
  refine ⟨ladderLaw, fun g c => ⟨g.target_withTarget c, fun engaged => Gear.withTarget_engaged engaged c,
    fun neutral presel => ?_, fun neutral presel => ?_⟩, fun s => ?_⟩
  · have both := Gear.withTarget_neutral neutral c
    rwa [presel] at both
  · have both := Gear.withTarget_neutral neutral c
    rwa [presel] at both
  intro g l ref stops
  have same : s.referenceGear = ref := s.referenceGear_eq
  refine ⟨?_, s.handTarget_law, ?_, State.keepTarget_free, ?_, ?_, State.headlandOut_off, ?_, ?_⟩
  · rfl
  · intro ups downs
    have law := s.pressTarget_law ups downs
    simp only [State.Stops, same] at law
    exact law
  · intro braking p r x z target place from' stop
    exact State.keepTarget_braking braking target place (same.trans from') stop
  · intro b
    have law := s.headlandTarget_law b
    simp only [State.Stops, same] at law
    exact law
  · intro p a b run engaged current place below
    rw [State.headlandOut_on run engaged current place, getD_of_get below]
  · intro saved d
    refine ⟨State.headlandIn_off saved d, fun run engaged => (State.headlandIn_on run engaged saved d).1,
      fun b run engaged same found => (State.headlandIn_on run engaged saved d).2 b same found⟩

end

end Sys2Proof.Machine

/-! ### Accepted Operator Command frames (R16, R18, R19, R174, R176) -/

namespace Sys2Proof.Machine

section

variable {s u w : State} {data : List Byte}

theorem State.SameDrive.trans {t : State} (h : t.SameDrive u) (k : u.SameDrive s) : t.SameDrive s :=
  ⟨h.motion.trans k.motion, h.gear.trans k.gear, h.shift.trans k.shift, h.arbiter.trans k.arbiter, h.fac.trans k.fac,
    h.hitch.trans k.hitch, h.trailer.trans k.trailer, h.mode.trans k.mode⟩

/-! ### What a frame hands on (R18, R19) -/

theorem operatorNews_law (a b : OperatorRecord) :
    let n := operatorNews a b
    (n.direction = true ↔ a.direction ≠ b.direction) ∧ (n.shiftMode = true ↔ a.shiftMode ≠ b.shiftMode) ∧
    (n.driveMode = true ↔ a.driveMode ≠ b.driveMode) ∧ (n.transport = true ↔ a.transport ≠ b.transport) ∧
    (n.dial = true ↔ a.dial ≠ b.dial) ∧
    (∀ x, b.lastUp = some x → n.ups = presses a.lastUp x) ∧ (∀ x, b.lastDown = some x → n.downs = presses a.lastDown x) ∧
    (a.lastUp = none → n.headland = .none ∧ n.button = .none) ∧
    (a.lastUp ≠ none → n.headland = (if a.headland = .none then b.headland else .none) ∧
      n.button = if a.button = .none then b.button else .none) := by
  refine ⟨bne_iff_ne, bne_iff_ne, bne_iff_ne, bne_iff_ne, bne_iff_ne, fun x up => ?_, fun x down => ?_, fun first => ?_,
    fun later => ?_⟩
  · simp only [operatorNews, up]
  · simp only [operatorNews, down]
  · simp [operatorNews, first]
  · have some' : a.lastUp.isSome = true := Option.isSome_iff_ne_none.2 later
    simp only [operatorNews, some', true_and, and_self]

theorem State.newDirection_law (s : State) (changed : Bool) : s.onlyIf changed State.newDirection =
    { s with gear := if changed = true ∧ s.mode.op = .run then { s.gear with shuttle := none, flag := .none } else s.gear } := by
  cases changed with
  | false => rfl
  | true =>
    by_cases run : s.mode.op = .run
    · simp only [run, and_self, if_true]
      exact if_pos run
    · simp only [run, and_false, if_false]
      exact if_neg run

theorem State.newShiftMode_law (s : State) (changed : Bool) : s.onlyIf changed State.newShiftMode =
    { s with gear := if changed = true ∧ s.intake.record.shiftMode = .manual then { s.gear with deferral := .stopped }
      else s.gear } := by
  cases changed with
  | false => rfl
  | true =>
    by_cases manual : s.intake.record.shiftMode = .manual
    · simp only [manual, and_self, if_true]
      exact if_pos manual
    · simp only [manual, and_false, if_false]
      exact if_neg manual

theorem handOnLaw : HandOnLaw := by
  refine ⟨operatorNews_law, fun n s => ?_, fun n s => ⟨rfl, rfl, rfl, ?_, rfl, fun _ _ => rfl⟩⟩
  · simp only [State.gearNews, State.newDirection_law, State.newShiftMode_law]
    refine ite_of_iff ?_
    simp only [Bool.or_eq_true, bne_iff_ne, or_assoc]
  · show s.hitchNews n = _
    rw [State.hitchNews]
    rfl

/-! ### The Command Supervisor (R174, R176) -/

/-- The Command Supervisor after an accepted frame, before the recovery test. -/
def State.supervised (s : State) (data : List Byte) : State :=
  ({ s with intake := { s.intake with record := s.intake.record.after data } } : State).supervisorAccepts

/-- An accepted frame, before its changes are handed on. -/
structure Accepted (s u : State) (data : List Byte) : Prop where
  now : u.now = s.now
  intake : u.intake = { s.intake with record := s.intake.record.after data }
  tables : u.tables = s.tables
  mgmt : u.mgmt = s.mgmt
  draft : u.draft = s.draft
  mail : u.mail = s.mail
  drive : u.SameDrive s
  token : u.supervisor.expectLow = !s.supervisor.expectLow
  last : u.supervisor.lastAccepted = some s.now
  late : u.supervisor.late = some (s.now + s.superT.tMaxMs * Config.msTicks)
  active : s.supervisor.tripped = false → u.supervisor.tripped = false ∧ u.supervisor.errors = s.supervisor.errors - 1 ∧
    u.supervisor.goodRun = s.supervisor.goodRun
  tripped : s.supervisor.tripped = true →
    if s.superT.recovery ≤ min 255 (s.supervisor.goodRun + 1) ∧ (s.intake.record.after data).direction = .n
    then u.supervisor.tripped = false ∧ u.supervisor.errors = 0 ∧ u.supervisor.goodRun = 0
    else u.supervisor.tripped = true ∧ u.supervisor.errors = s.supervisor.errors - 1 ∧
      u.supervisor.goodRun = min 255 (s.supervisor.goodRun + 1)
  notices : u.notices = s.notices ++ if s.supervisor.tripped = true ∧ u.supervisor.tripped = false then [.causes] else []

theorem State.supervised_goodRun (tripped : s.supervisor.tripped = true) (data : List Byte) :
    (s.supervised data).supervisor.goodRun = min 255 (s.supervisor.goodRun + 1) := if_pos tripped

theorem State.supervised_accepted (s : State) (data : List Byte) : Accepted s (s.supervised data).recoveryTest data := by
  have drive : ({ s with intake := { s.intake with record := s.intake.record.after data } } : State).SameDrive s :=
    ⟨rfl, rfl, rfl, rfl, rfl, rfl, rfl, rfl⟩
  rw [State.recoveryTest]
  split
  next recovers =>
    obtain ⟨here, run, neutral⟩ := recovers
    have tripped : s.supervisor.tripped = true := here
    rw [State.supervised_goodRun tripped] at run
    exact {
      now := rfl, intake := rfl, tables := rfl, mgmt := rfl, draft := rfl, mail := rfl, drive := { drive with }
      token := rfl, last := rfl, late := rfl
      active := fun ok => absurd (ok.symm.trans tripped) Bool.false_ne_true
      tripped := fun _ => Eq.mpr (if_pos ⟨run, neutral⟩) ⟨rfl, rfl, rfl⟩
      notices := (congrArg (s.notices ++ ·) (if_pos ⟨tripped, rfl⟩)).symm }
  next stays =>
    refine {
      now := rfl, intake := rfl, tables := rfl, mgmt := rfl, draft := rfl, mail := rfl, drive := { drive with }
      token := rfl, last := rfl, late := rfl
      active := fun ok => ⟨ok, rfl, if_neg (Bool.eq_false_iff.1 ok)⟩
      tripped := fun tripped => ?_
      notices := ?_ }
    · have good := State.supervised_goodRun tripped data
      refine Eq.mpr (if_neg fun recovers => stays ⟨tripped, ?_, recovers.2⟩) ⟨tripped, rfl, good⟩
      rw [good]
      exact recovers.1
    · have kept : ¬(s.supervisor.tripped = true ∧ (s.supervised data).supervisor.tripped = false) := fun h =>
        absurd (h.1.symm.trans h.2) Bool.noConfusion
      rw [if_neg kept, List.append_nil]
      rfl

theorem State.operatorFrame_accepted (early : s.tooEarly = false) (token : dataAt data 0 = s.supervisor.token) :
    s.operatorFrame data = ((s.supervised data).recoveryTest).handOn
      (operatorNews s.intake.record (s.intake.record.after data)) := by
  rw [State.operatorFrame, if_neg (Bool.eq_false_iff.1 early), if_neg (not_not_intro token)]
  rfl

end

/-- Settles O18. -/
theorem acceptedOperatorFrameUpdatesRecordAndSupervisor : Obligations.AcceptedOperatorFrameUpdatesRecordAndSupervisor := by
  refine ⟨?_, handOnLaw, fun s => s.settled_anyOrder, selectorLaw, engagedLaw, handedReleaseLaw, targetLaw, buttonLaw,
    hitchLevelLaw, headlandLaw⟩
  intro s time l f e reset on matched kind spaced token
  have found := s.forward_finds time l e (rxFrame f)
  have calm : s.Undisturbed l → ((s.heardOn time l).forward l e (rxFrame f)).Calm s := fun h =>
    (State.heardOn_calm h time).forward l e (rxFrame f)
  refine ⟨_, congrArg Host.Outcome.next (State.receive_heard reset on), ?_⟩
  rw [State.takeFrame_operator matched kind]
  generalize (s.heardOn time l).forward l e (rxFrame f) = w at found calm ⊢
  have limits : w.superT = s.superT := congrArg supervisionTable (State.inUse_of_tables found.tables .supervision)
  have onTime : w.tooEarly = false := by
    refine Bool.eq_false_iff.2 fun early => ?_
    obtain ⟨t0, last, soon⟩ := w.tooEarly_iff.1 early
    rw [found.supervisor] at last
    rw [found.now, limits] at soon
    exact absurd (spaced t0 last) (Nat.not_le.2 soon)
  have right : dataAt (rxFrame f).data 0 = w.supervisor.token := by
    rw [found.supervisor]
    exact token
  rw [State.operatorFrame_accepted onTime right]
  obtain ⟨now, intake, tables, mgmt, draft, mail, drive, flips, last, late, active, tripped, notices⟩ :=
    w.supervised_accepted (rxFrame f).data
  rw [found.now] at now last late
  rw [found.intake] at intake tripped
  rw [found.supervisor] at flips active tripped notices
  rw [limits] at late tripped
  rw [found.intake]
  generalize (w.supervised (rxFrame f).data).recoveryTest = u at *
  have events := (u.handOn (operatorNews s.intake.record (s.intake.record.after (rxFrame f).data))).settled_reacts
  have record : (u.handOn (operatorNews s.intake.record (s.intake.record.after (rxFrame f).data))).settled.intake.record =
      s.intake.record.after (rxFrame f).data := congrArg Intake.record (events.intake.trans intake)
  have clock : (u.handOn (operatorNews s.intake.record (s.intake.record.after (rxFrame f).data))).settled.now =
      max s.now time := events.now.trans now
  rw [events.supervisor, record, clock]
  refine ⟨rfl, events.intake.trans intake, flips, last, late, active, tripped, events.tables.trans (tables.trans found.tables),
    events.mgmt.trans (mgmt.trans found.mgmt),
    (congrArg Draft.record (events.draft.trans draft)).trans found.draft,
    (events.mailbox (id := .reply) nofun).trans (congrArg Mailboxes.reply (mail.trans found.mail)), fun undisturbed => ?_⟩
  have quiet := calm undisturbed
  refine ⟨u, ?_, now, events.intake.symm, events.tables.symm, rfl, ?_, rfl⟩
  · exact drive.trans quiet.drive
  · rw [notices, quiet.notices, List.nil_append]
    rfl

end Sys2Proof.Machine

/-! ### The end of an order (R50, R57, R71, R84) -/

namespace Sys2Proof.Machine

section

variable {s t u : State} {o : Order} {g : Gear} {r : OrderResult} {d : Dir}

/-! ### Grant decisions without a waiting request of the front axle -/

/-- No request of the front axle waits, and the front axle and the waiting events are as they were. -/
structure AxleIdle (s t : State) : Prop where
  wait : t.arbiter.facWait = false
  fac : t.fac = s.fac
  notices : t.notices = s.notices

theorem AxleIdle.trans (h : AxleIdle s t) (k : AxleIdle t u) : AxleIdle s u :=
  ⟨k.wait, k.fac.trans h.fac, k.notices.trans h.notices⟩

theorem State.grantShift_facWait (s : State) : s.grantShift.arbiter.facWait = s.arbiter.facWait ∧
    s.grantShift.notices = s.notices := by
  cases wait : s.arbiter.shiftWait with
  | none => rw [State.grantShift_none wait]; exact ⟨rfl, rfl⟩
  | some n =>
    by_cases enough : n ≤ s.arbiter.count .free
    · rw [State.grantShift_served wait enough, State.shiftGranted_arbiter]
      obtain ⟨shift, trailer, same⟩ := State.shiftGranted_only { s with arbiter := s.arbiter.shiftServed n }
      rw [same]
      exact ⟨s.arbiter.shiftServed_facWait n, rfl⟩
    · rw [State.grantShift_few wait (Nat.lt_of_not_le enough)]; exact ⟨rfl, rfl⟩

theorem State.decideFill_idle (h : s.arbiter.facWait = false) : AxleIdle s s.decideFill := by
  by_cases supply : (s.clutchHdr.supplyMin : Int) ≤ s.shown supplyPress
  · obtain ⟨wait, notices⟩ := s.grantShift_facWait
    rw [State.decideFill_supplied supply, State.grantFac_none (wait.trans h)]
    exact ⟨wait.trans h, s.grantShift_fac, notices⟩
  · rw [State.decideFill_refused supply]
    exact ⟨h, rfl, rfl⟩

theorem State.shiftRequest_idle (h : s.arbiter.facWait = false) (n : Nat) : AxleIdle s (s.shiftRequest n) :=
  have given := State.decideFill_idle (s := { s with arbiter := { s.arbiter with shiftWait := some n } }) h
  ⟨given.wait, given.fac, given.notices⟩

theorem State.enterOrder_idle (h : s.arbiter.facWait = false) (o : Order) : AxleIdle s (s.enterOrder o) := by
  by_cases wait : o.phase = .waitSupply
  · have asks : s.enterOrder o =
        (({ s with shift := { s.shift with order := some o } } : State).setNeut).shiftRequest o.oncoming.length := if_pos wait
    have given := State.shiftRequest_idle (s := ({ s with shift := { s.shift with order := some o } } : State).setNeut) h
      o.oncoming.length
    rw [asks]
    exact ⟨given.wait, given.fac, given.notices⟩
  · have idle : s.enterOrder o = ({ s with shift := { s.shift with order := some o } } : State).setNeut := if_neg wait
    rw [idle]
    exact ⟨h, rfl, rfl⟩

/-! ### A decision of the selector: an order or none -/

/-- A new order, and its request for slots. -/
structure Order.New (o : Order) (s t : State) : Prop where
  shift : t.shift = { s.shift with order := some o }
  duration : o.duration = 0
  count : o.count = 0
  merged : o.merged = none
  request : s.arbiter.shiftWait = none →
    t.arbiter.shiftWait = if o.phase = .waitSupply then some o.oncoming.length else none

/-- What a decision does: it writes the selector, and puts at most one new order in flight. -/
structure Decides (s t : State) : Prop where
  only : t = { s with gear := t.gear, shift := t.shift, arbiter := t.arbiter, trailer := t.trailer, neut := t.neut }
  current : t.gear.current = s.gear.current
  holdOff : t.gear.holdOff = s.gear.holdOff
  order : t.shift = s.shift ∧ t.arbiter = s.arbiter ∧ t.neut = s.neut ∨ ∃ o : Order, o.New s t

theorem Decides.refl (s : State) : Decides s s := ⟨rfl, rfl, rfl, .inl ⟨rfl, rfl, rfl⟩⟩

/-- A decision after the selector has moved. -/
theorem Decides.ofGear (h : Decides { s with gear := g } t) (current : g.current = s.gear.current)
    (holdOff : g.holdOff = s.gear.holdOff) : Decides s t :=
  ⟨h.only, h.current.trans current, h.holdOff.trans holdOff, h.order.imp id fun ⟨o, new⟩ =>
    ⟨o, new.shift, new.duration, new.count, new.merged, new.request⟩⟩

theorem Entered.news (h : Entered s t o) (duration : o.duration = 0) (count : o.count = 0) (merged : o.merged = none) :
    ∃ q : Order, q.New s t := by
  by_cases wait : o.phase = .waitSupply
  · by_cases supplied : s.Supplies o.oncoming.length
    · obtain ⟨shift, served, -⟩ := h.granted wait supplied
      refine ⟨o.granted, shift, duration, rfl, merged, fun _ => served.trans (if_neg ?_).symm⟩
      rw [Order.granted]
      simp only
      split <;> exact Phase.noConfusion
    · obtain ⟨shift, arbiter⟩ := h.waits wait supplied
      refine ⟨o, shift, duration, count, merged, fun _ => ?_⟩
      rw [arbiter, if_pos wait]
  · obtain ⟨shift, arbiter⟩ := h.idle wait
    refine ⟨o, shift, duration, count, merged, fun none => ?_⟩
    rw [arbiter, none, if_neg wait]

theorem Order.begun_fresh (ws : List TWord) (kind : OrderKind) (a b : Option Nat) (d e : Dir) :
    (newOrder ws kind a b d e).begun.duration = 0 ∧ (newOrder ws kind a b d e).begun.count = 0 ∧
      (newOrder ws kind a b d e).begun.merged = none := by
  cases kind <;> exact ⟨rfl, rfl, rfl⟩

theorem State.takeOrder_decides (h : s.arbiter.facWait = false) (kind : OrderKind) (a b : Option Nat) (d e : Dir) :
    Decides s (s.takeOrder kind a b d e) := by
  obtain ⟨duration, count, merged⟩ := Order.begun_fresh s.gearWords kind a b d e
  have entered := s.enterOrder_entered (newOrder s.gearWords kind a b d e).begun
  have idle := State.enterOrder_idle h (newOrder s.gearWords kind a b d e).begun
  rw [State.takeOrder]
  generalize s.enterOrder (newOrder s.gearWords kind a b d e).begun = t at entered idle
  have gear : t.gear = s.gear := by rw [entered.only]
  refine ⟨?_, by rw [gear], by rw [gear], .inr (entered.news duration count merged)⟩
  have only := entered.only
  rw [idle.fac, idle.notices] at only
  rw [gear]
  exact only

theorem Gear.withTarget_holdOff (g : Gear) (c : Option Nat) : (g.withTarget c).holdOff = g.holdOff := by
  obtain ⟨dirState, presel⟩ := g
  cases dirState with
  | f | r => rfl
  | n => cases presel <;> rfl

theorem State.keepTarget_holdOff (s : State) : s.keepTarget.gear.holdOff = s.gear.holdOff := by
  rw [State.keepTarget]
  split
  · exact Gear.withTarget_holdOff ..
  · rfl

theorem State.keepTarget_only (s : State) : s.keepTarget = { s with gear := s.keepTarget.gear } := by
  rw [State.keepTarget]
  split <;> rfl

theorem Gear.withPre_keeps (g : Gear) (d : Dir) (c : Option Nat) :
    (g.withPre d c).current = g.current ∧ (g.withPre d c).holdOff = g.holdOff := by
  cases d <;> exact ⟨rfl, rfl⟩

theorem State.issueRelease_decides (h : s.arbiter.facWait = false) (d : Dir) : Decides s (s.issueRelease d) := by
  obtain ⟨current, holdOff⟩ := (s.gear.setDir .n).withPre_keeps d s.gear.current
  exact (State.takeOrder_decides (s := s.withGear fun g => g.released d g.current) h ..).ofGear current holdOff

theorem State.issueShuttle_decides (h : s.arbiter.facWait = false) (x y : Dir) : Decides s (s.issueShuttle x y) := by
  obtain ⟨current, holdOff⟩ := (s.gear.setDir .n).withPre_keeps y s.gear.current
  exact (State.takeOrder_decides
    (s := s.withGear fun g => { ((g.setDir .n).withPre y g.current).dropShuttle with presel := x }) h ..).ofGear current holdOff

theorem State.requestInN_decides (h : s.arbiter.facWait = false) (x : Dir) : Decides s (s.requestInN x) := by
  rw [State.requestInN]
  split
  · exact .refl s
  · have kept := State.keepTarget_only (s.withGear fun g => { g with presel := x })
    have current := State.keepTarget_current (s.withGear fun g => { g with presel := x })
    have holdOff := State.keepTarget_holdOff (s.withGear fun g => { g with presel := x })
    simp only
    generalize (s.withGear fun g => { g with presel := x }).keepTarget = v at *
    rw [kept]
    exact (State.takeOrder_decides (s := { s with gear := v.gear }) h ..).ofGear current holdOff

theorem State.decideFree_decides (h : s.arbiter.facWait = false) : Decides s s.decideFree := by
  rw [State.decideFree]
  split
  · exact .refl s
  · split
    · exact .refl s
    · exact State.takeOrder_decides h ..

theorem State.decideEngaged_decides (h : s.arbiter.facWait = false) : Decides s (s.decideEngaged false) := by
  rw [State.decideEngaged]
  split
  · split
    · exact State.takeOrder_decides h ..
    · rw [if_neg fun k => Bool.noConfusion k.1]
      exact .refl s
  · exact .refl s

theorem State.decideRequest_decides (h : s.arbiter.facWait = false) (x y : Dir) : Decides s (s.decideRequest false x y) := by
  rw [State.decideRequest]
  split
  · exact State.decideEngaged_decides h
  · split
    · exact .refl s
    · split
      · exact State.issueShuttle_decides h x y
      · rw [State.keepShuttle]
        split
        · exact State.decideEngaged_decides h
        · exact Decides.ofGear (State.decideEngaged_decides (s := s.withGear _) h) rfl rfl

/-- Every decision at an order end. -/
theorem State.decideIdle_decides (h : s.arbiter.facWait = false) : Decides s (s.decideIdle false) := by
  rw [State.decideIdle]
  split
  · split
    · exact State.decideFree_decides h
    · exact .refl s
  · split
    · exact State.issueRelease_decides h _
    · exact State.requestInN_decides h _
    · exact State.decideRequest_decides h _ _
    · exact State.decideFree_decides h
  all_goals exact .refl s

/-! ### The end report (R50) -/

theorem OrderResult.locking_iff : r.locking = true ↔ r = .completed ∨ r = .free ∨ r = .forcedLock := by
  cases r <;> simp [OrderResult.locking]

/-- What a move of the target changes. -/
theorem Gear.withTarget_only (g : Gear) (c : Option Nat) : g.withTarget c = { g with
    ownTarget := (g.withTarget c).ownTarget, preF := (g.withTarget c).preF, preR := (g.withTarget c).preR } := by
  obtain ⟨dirState, presel⟩ := g
  cases dirState with
  | f | r => rfl
  | n => cases presel <;> rfl

theorem Gear.afterEnd_report (h : g.clearAtEnd = false) (o : Order) (r : OrderResult) : g.afterEnd o r = g.afterReport o r :=
  if_neg (Bool.eq_false_iff.1 h)

theorem Gear.afterReport_swap (swap : o.kind = .swap1 ∨ o.kind = .swap2) (g : Gear) (r : OrderResult) : g.afterReport o r =
    if r = .completed ∨ r = .free ∨ r = .forcedLock then { g with current := o.toGear }
    else if o.merged = none then ({ g with current := o.fromGear } : Gear).withTarget o.fromGear
    else { g with current := o.fromGear } := by
  have body : g.afterReport o r = if r.locking then { g with current := o.toGear }
      else if o.merged = none then ({ g with current := o.fromGear } : Gear).withTarget o.fromGear
      else { g with current := o.fromGear } := by
    obtain kind | kind := swap <;> simp only [Gear.afterReport, kind]
  rw [body]
  exact ite_of_iff OrderResult.locking_iff

theorem endReportLaw : EndReportLaw := by
  intro g o r
  refine ⟨fun clears => if_pos clears, fun clears => ?_⟩
  rw [Gear.afterEnd_report clears]
  cases kind : o.kind with
  | swap1 | swap2 =>
    have swap : o.kind = .swap1 ∨ o.kind = .swap2 := by simp [kind]
    rw [Gear.afterReport_swap swap]
    refine ⟨fun locks => if_pos locks, fun opens merged => ?_, fun opens merged => ?_⟩
    · rw [if_neg opens, if_neg merged]
    · rw [if_neg opens, if_pos merged]
      have current := Gear.withTarget_current { g with current := o.fromGear } o.fromGear
      have only := Gear.withTarget_only { g with current := o.fromGear } o.fromGear
      refine ⟨current, ?_, Gear.target_withTarget ..⟩
      rw [current]
      exact only
  | free =>
    simp only [Gear.afterReport, kind, OrderResult.locking_iff]
  | engage =>
    simp only [Gear.afterReport, kind, OrderResult.locking_iff]
    refine ⟨fun locks => ?_, fun opens => if_neg opens⟩
    rw [if_pos locks]
    cases o.dir <;> exact ⟨rfl, rfl, rfl⟩
  | release => simp only [Gear.afterReport, kind]
  | shuttle =>
    simp only [Gear.afterReport, kind, OrderResult.locking_iff]
    refine ⟨fun locks => ?_, fun opens => if_neg opens⟩
    rw [if_pos locks]
    cases o.dir <;> exact ⟨rfl, rfl, rfl⟩

/-! ### The end of an order (R50, R57, R84) -/

/-- The selector and the Shift Engine once the end of an order is reported and recorded. -/
def State.reported (s : State) (o : Order) (r : OrderResult) (change : Int) : State :=
  let kept := ({ s with shift := { s.shift with order := none }, gear := s.gear.afterEnd o r } : State).keepTarget
  { s with
    shift := { s.shift with order := none }
    gear := { kept.gear with
      holdOff := some (s.now + (scheduleHeader (s.inUse .shiftSchedule)).holdOffMs * Config.msTicks) }
    mail := { s.mail with shiftRecord := ⟨some (shiftRecordData o r change), true⟩ }
    tLink := { s.tLink with offer := s.tLink.offer.map (·.noteWrite .shiftRecord) }
    neut := s.command 7 == 0 && s.command 8 == 0 }

theorem State.writeMail_t (s : State) {id : MailboxId} (h : id.link = .t) (data : List Byte) : s.writeMail id data = { s with
    mail := s.mail.put id ⟨some data, true⟩
    tLink := { s.tLink with offer := s.tLink.offer.map (·.noteWrite id) } } := by
  rw [State.writeMail_fields, h]
  rfl

theorem State.orderEnd_eq (s : State) (o : Order) (r : OrderResult) (change : Int) :
    s.orderEnd o r change = (s.reported o r change).decideIdle false := by
  have kept := State.keepTarget_only
    { s with shift := { s.shift with order := none }, gear := s.gear.afterEnd o r }
  refine congrArg (State.decideIdle false) ?_
  show (((((({ s with shift := { s.shift with order := none } } : State).withGear fun g => g.afterEnd o r).keepTarget).writeMail
    .shiftRecord (shiftRecordData o r change)).withGear _).setNeut) = _
  rw [State.reported]
  have same : (({ s with shift := { s.shift with order := none } } : State).withGear fun g => g.afterEnd o r) =
    { s with shift := { s.shift with order := none }, gear := s.gear.afterEnd o r } := rfl
  rw [same]
  generalize ({ s with shift := { s.shift with order := none }, gear := s.gear.afterEnd o r } : State).keepTarget = v at kept ⊢
  rw [State.writeMail_t v rfl, kept]
  have neut : (s.command 7 == 0 && s.command 8 == 0 && !((none : Option Order).any Order.engaging)) =
    (s.command 7 == 0 && s.command 8 == 0) := by simp
  rw [← neut]
  rfl

theorem orderEndLaw : OrderEndLaw := by
  intro s o r change
  refine ⟨s.reported o r change, s.orderEnd_eq o r change, rfl, rfl, ?_, ?_⟩
  · rfl
  · exact (Bool.and_eq_true ..).to_iff.trans (and_congr beq_iff_eq beq_iff_eq)

end

end Sys2Proof.Machine

/-! ### One clutch step of an order (R59, R65 to R73, R79 to R81) -/

namespace Sys2Proof.Machine

section

variable {s t : State} {o : Order} {d : Option Dir} {e : StepEnd} {ds : List Drive} {k : Nat} {f : Profile}

/-! ### Kinds of orders -/

theorem Order.swaps_iff : o.Swaps ↔ o.kind.isSwap = true := OrderKind.isSwap_iff.symm

theorem Order.engages_iff : o.Engages ↔ o.engaging = true := by
  simp only [Order.Engages, Order.engaging, Bool.or_eq_true, Bool.and_eq_true, beq_iff_eq]

theorem Order.dumps_iff : o.Dumps d ↔ o.dumping = d := by
  rw [Order.Dumps, Order.dumping]
  cases o.kind with
  | shuttle => cases o.sub <;> exact eq_comm
  | swap1 | swap2 | engage | release | free => exact eq_comm

/-! ### The start of a step: the pedal is read (R59, R66, R71, R79) -/

/-- The swap is free, or the pedal makes it so. -/
abbrev State.Frees (s : State) (o : Order) : Prop :=
  o.freed = true ∨ o.kind.isSwap = true ∧ o.phase ≠ .lock ∧ o.phase ≠ .dump ∧ 500 ≤ s.shown clutchPedal

/-- A free swap in OVERLAP or SYNC makes this its LOCK step. -/
abbrev State.Locks (s : State) (o : Order) : Prop :=
  o.kind.isSwap = true ∧ s.Frees o ∧ (o.phase = .overlap ∨ o.phase = .sync)

theorem State.readPedal_eq (s : State) (o : Order) : s.readPedal o = { o with freed := decide (s.Frees o) } := by
  rw [State.readPedal]
  split
  next reads =>
    have frees : s.Frees o := .inr reads
    rw [decide_eq_true frees]
  next stays =>
    have same : decide (s.Frees o) = o.freed := by
      by_cases freed : o.freed = true
      · exact (decide_eq_true (.inl freed)).trans freed.symm
      · exact (decide_eq_false fun frees => frees.elim freed stays).trans (Bool.eq_false_iff.2 freed).symm
    rw [same]

theorem State.freeNow_eq (s : State) (o : Order) : (s.readPedal o).freeNow = { o with
    freed := decide (s.Frees o), phase := if s.Locks o then .lock else o.phase, count := if s.Locks o then 0 else o.count } := by
  rw [State.readPedal_eq, Order.freeNow]
  by_cases locks : s.Locks o
  · rw [if_pos locks, if_pos locks]
    exact if_pos ⟨locks.1, decide_eq_true locks.2.1, locks.2.2⟩
  · rw [if_neg locks, if_neg locks]
    exact if_neg fun h => locks ⟨h.1, of_decide_eq_true h.2.1, h.2.2⟩

/-- The order at the start of a step. -/
theorem State.stepBegin_pedal (s : State) (o : Order) : s.stepBegin o = { o with
    freed := decide (s.Frees o), phase := if s.Locks o then .lock else o.phase, count := if s.Locks o then 0 else o.count
    duration := min 65535 (o.duration + 1)
    throttleHeld := if o.phase = .prepare then o.throttleHeld else o.throttleHeld && decide (100 ≤ s.shown throttle) } := by
  rw [State.stepBegin, State.freeNow_eq, State.keepThrottle]
  by_cases prepares : o.phase = .prepare
  · have kept : ¬s.Locks o := fun locks => by
      obtain overlap | sync := locks.2.2
      · exact absurd (prepares.symm.trans overlap) Phase.noConfusion
      · exact absurd (prepares.symm.trans sync) Phase.noConfusion
    rw [if_neg kept, if_neg kept, if_pos prepares, if_pos prepares]
  · have other : (if s.Locks o then Phase.lock else o.phase) ≠ .prepare := by
      split
      · exact Phase.noConfusion
      · exact prepares
    rw [if_neg prepares]
    exact if_neg other

/-! ### The pressures of a step (R66 to R72) -/

theorem onDrives_same (s : State) (ds : List Drive) : onDrives s (fun _ d => d.kPa) ds = ds := List.map_id' ds

theorem Profile.rise_eq (f : Profile) (k x : Nat) : f.rise (k == 1) x = if k = 1 then f.pRamp0 else min f.pMax (x + f.rOn) :=
  ite_of_iff beq_iff_eq

theorem onDrives_rise (s : State) (ds : List Drive) (k : Nat) : onDrives s (fun p d => p.rise (k == 1) d.kPa) ds =
    ds.map fun d => ⟨d.clutch, if k = 1 then (s.prof d.clutch).pRamp0
      else min (s.prof d.clutch).pMax (d.kPa + (s.prof d.clutch).rOn)⟩ := by
  simp only [onDrives, Profile.rise_eq]

/-- What one step of a phase writes, before the dump. -/
def Order.Stepped (o n : Order) : Prop := n = { o with
  count := o.count + 1, oncoming := n.oncoming, offgoing := n.offgoing, inRef := n.inRef, outRef := n.outRef
  flare := n.flare, tieUp := n.tieUp, forced := n.forced, throttleHeld := n.throttleHeld }

/-- What a phase captures and observes. -/
structure Order.Observes (s : State) (o n : Order) : Prop where
  throttle : n.throttleHeld = if o.phase = .prepare then decide (100 ≤ s.shown throttle) else o.throttleHeld
  refs : o.phase ≠ .prepare → n.inRef = o.inRef ∧ n.outRef = o.outRef
  flare : o.phase ≠ .overlap → n.flare = o.flare ∧ n.tieUp = o.tieUp
  forced : o.phase ≠ .sync → n.forced = o.forced

theorem State.runPhase_stepped (s : State) (o : Order) (p : Phase) :
    Order.Stepped { o with phase := p } (s.runPhase { o with phase := p }).1 ∧
      Order.Observes s { o with phase := p } (s.runPhase { o with phase := p }).1 := by
  cases p with
  | waitSupply | fill | lock | ramp | dump =>
    exact ⟨rfl, rfl, fun _ => ⟨rfl, rfl⟩, fun _ => ⟨rfl, rfl⟩, fun _ => rfl⟩
  | prepare => exact ⟨rfl, rfl, fun not => absurd rfl not, fun _ => ⟨rfl, rfl⟩, fun _ => rfl⟩
  | overlap => exact ⟨rfl, rfl, fun _ => ⟨rfl, rfl⟩, fun not => absurd rfl not, fun _ => rfl⟩
  | sync =>
    simp only [State.runPhase]
    split
    · exact ⟨rfl, rfl, fun _ => ⟨rfl, rfl⟩, fun _ => ⟨rfl, rfl⟩, fun _ => rfl⟩
    · split
      · exact ⟨rfl, rfl, fun _ => ⟨rfl, rfl⟩, fun _ => ⟨rfl, rfl⟩, fun not => absurd rfl not⟩
      · exact ⟨rfl, rfl, fun _ => ⟨rfl, rfl⟩, fun _ => ⟨rfl, rfl⟩, fun _ => rfl⟩

theorem Order.dropsAtOnce_iff : o.dropsAtOnce = true ↔ o.freed = true ∨ o.kind.isSwap = false := by
  rw [Order.dropsAtOnce, Bool.or_eq_true, Bool.not_eq_true']

theorem State.synced_iff (s : State) (o : Order) : s.synced o = true ↔
    (s.shown outSpeed - (s.shown engSpeed * o.ratioTo).tdiv 4096).natAbs ≤ s.clutchHdr.syncWindow := decide_eq_true_iff

theorem all_iff (ds : List Drive) (p : Drive → Prop) [DecidablePred p] :
    (ds.all fun d => decide (p d)) = true ↔ ∀ d ∈ ds, p d := by
  simp only [List.all_eq_true, decide_eq_true_eq]

theorem allAt_iff (ds : List Drive) (x : Drive → Nat) : (ds.all fun d => d.kPa == x d) = true ↔ ∀ d ∈ ds, d.kPa = x d := by
  simp only [List.all_eq_true, beq_iff_eq]

/-- Each phase runs as the specification says. -/
theorem State.runPhase_runs (s : State) (o : Order) (p : Phase) (freed drops : Prop) [Decidable freed] [Decidable drops]
    (free : o.freed = true ↔ freed) (drop : o.dropsAtOnce = true ↔ drops) :
    PhaseRuns s { o with phase := p } (s.runPhase { o with phase := p }).1 (s.runPhase { o with phase := p }).2 (o.count + 1)
      freed drops := by
  have offs (a b : Profile → Drive → Nat) : onDrives s (fun p d => if o.dropsAtOnce then a p d else b p d) o.offgoing =
      onDrives s (fun p d => if drops then a p d else b p d) o.offgoing :=
    congrArg (fun g => onDrives s g o.offgoing) (funext fun _ => funext fun _ => ite_of_iff drop)
  cases p with
  | waitSupply => exact ⟨(onDrives_same s o.oncoming).symm, (onDrives_same s o.offgoing).symm, rfl⟩
  | prepare => exact ⟨rfl, offs (fun _ _ => 0) fun p _ => p.pOffhold, rfl, rfl, rfl⟩
  | fill =>
    have filled := all_iff o.oncoming fun d => (s.prof d.clutch).fillSteps ≤ o.count + 1
    refine ⟨rfl, offs (fun _ _ => 0) fun _ d => d.kPa, fun full => ⟨fun engages => ?_, fun moves => ?_⟩, fun fills => ?_⟩
    · exact (if_pos (filled.2 full)).trans (congrArg StepEnd.phase (if_pos (Order.engages_iff.1 engages)))
    · exact (if_pos (filled.2 full)).trans
        (congrArg StepEnd.phase ((if_neg (mt Order.engages_iff.2 moves)).trans (ite_of_iff drop)))
    · exact if_neg (mt filled.1 fills)
  | overlap =>
    refine ⟨onDrives_rise s o.oncoming _, rfl, ?_, ?_, ?_⟩
    · exact (Bool.or_eq_true ..).to_iff.trans (or_congr .rfl decide_eq_true_iff)
    · exact (Bool.or_eq_true ..).to_iff.trans (or_congr .rfl decide_eq_true_iff)
    · exact (congrArg (ite _ · _) (congrArg StepEnd.phase (ite_of_iff (s.synced_iff o)))).trans
        (ite_of_iff (allAt_iff _ fun _ => 0))
  | sync =>
    have same := s.synced_iff o
    have off := (onDrives_same s o.offgoing).symm
    by_cases synced : s.synced o = true
    · have run : s.runPhase { o with phase := .sync } = ({ o with
          phase := .sync, count := o.count + 1, oncoming := onDrives s (fun p d => p.rise false d.kPa) o.oncoming },
          .phase .lock) := if_pos synced
      rw [run]
      exact ⟨rfl, off, ⟨.inl, fun h => h.resolve_right fun k => k.1 (same.1 synced)⟩, (if_pos (.inl (same.1 synced))).symm⟩
    · by_cases late : s.clutchHdr.syncMaxMs / 10 ≤ o.count + 1
      · have run : s.runPhase { o with phase := .sync } = ({ o with
            phase := .sync, count := o.count + 1, oncoming := onDrives s (fun p d => p.rise false d.kPa) o.oncoming
            forced := true }, .phase .lock) := (if_neg synced).trans (if_pos late)
        rw [run]
        exact ⟨rfl, off, ⟨fun _ => .inr ⟨mt same.2 synced, late⟩, fun _ => rfl⟩, (if_pos (.inr late)).symm⟩
      · have run : s.runPhase { o with phase := .sync } = ({ o with
            phase := .sync, count := o.count + 1, oncoming := onDrives s (fun p d => p.rise false d.kPa) o.oncoming },
            .goesOn) := (if_neg synced).trans (if_neg late)
        rw [run]
        exact ⟨rfl, off, ⟨.inl, fun h => h.resolve_right fun k => late k.2⟩,
          (if_neg fun h => h.elim (mt same.2 synced) late).symm⟩
  | lock =>
    refine ⟨rfl, rfl, fun other => ?_, fun swaps => ?_⟩
    · exact congrArg StepEnd.part (if_neg (mt Order.swaps_iff.2 other))
    · exact congrArg StepEnd.part ((if_pos (Order.swaps_iff.1 swaps)).trans (ite_of_iff free))
  | ramp =>
    exact ⟨onDrives_rise s o.oncoming _, (onDrives_same s o.offgoing).symm,
      ite_of_iff (allAt_iff _ fun d => (s.prof d.clutch).pMax)⟩
  | dump =>
    exact ⟨fun swaps => if_pos (Order.swaps_iff.1 swaps),
      fun other => (if_neg (mt Order.swaps_iff.2 other)).trans (onDrives_same s o.oncoming).symm,
      (onDrives_same s o.offgoing).symm, rfl⟩

/-! ### The dump (R73) -/

theorem State.dumpStep_only (s : State) (o : Order) : s.dumpStep o = { o with dump := (s.dumpStep o).dump } := by
  rw [State.dumpStep]
  split <;> rfl

theorem State.dumpStep_dump (s : State) (o : Order) : (s.dumpStep o).dump = match o.dumping with
    | none => o.dump
    | some d => some (o.dump.getD (if d = .f then s.command 7 else s.command 8) - (s.prof (dirClutch d)).rOff) := by
  rw [State.dumpStep]
  split <;> simp only [*]

/-- The order at the end of a step. -/
theorem State.stepOrder_eq (s : State) (o : Order) :
    s.stepOrder o = (s.dumpStep (s.runPhase (s.stepBegin o)).1, (s.runPhase (s.stepBegin o)).2) := rfl

section

variable {b m n : Order} {p : Phase} {c duration : Nat} {freed throttleHeld : Bool} {x : Option Nat}

/-- The three parts of a step, put together: what the whole writes. -/
theorem Order.Stepped.only (h : b.Stepped m) (begun : b = { o with
      freed := freed, phase := p, count := c, duration := duration, throttleHeld := throttleHeld })
    (dumped : n = { m with dump := x }) : n = { o with
      oncoming := n.oncoming, offgoing := n.offgoing, phase := p, count := c + 1, inRef := n.inRef, outRef := n.outRef
      flare := n.flare, tieUp := n.tieUp, forced := n.forced, throttleHeld := n.throttleHeld, freed := freed
      dump := n.dump, duration := duration } := by
  subst begun dumped
  exact (congrArg (fun y : Order => { y with dump := x }) h).trans rfl

/-- They run the phase the order stands in after the pedal is read. -/
theorem PhaseRuns.whole {drops frees : Prop} [Decidable frees] [Decidable drops] (h : PhaseRuns s b m e k frees drops)
    (begun : b = { o with
      freed := freed, phase := p, count := c, duration := duration, throttleHeld := throttleHeld })
    (dumped : n = { m with dump := x }) : PhaseRuns s o n e k frees drops := by
  subst begun dumped
  exact h

theorem Order.Stepped.dumping (h : b.Stepped m) (begun : b = { o with
      freed := freed, phase := p, count := c, duration := duration, throttleHeld := throttleHeld }) :
    m.dumping = o.dumping ∧ m.dump = o.dump := by
  subst begun
  rw [h]
  exact ⟨rfl, rfl⟩

end

theorem State.stepBegin_count (s : State) (o : Order) :
    (if s.Locks o then 0 else o.count) + 1 = if s.Locks o then 1 else o.count + 1 := by
  split <;> rfl

theorem State.stepBegin_keeps (s : State) (o : Order) : (s.stepBegin o).inRef = o.inRef ∧ (s.stepBegin o).outRef = o.outRef ∧
    (s.stepBegin o).flare = o.flare ∧ (s.stepBegin o).tieUp = o.tieUp ∧ (s.stepBegin o).forced = o.forced := by
  rw [State.stepBegin_pedal]
  exact ⟨rfl, rfl, rfl, rfl, rfl⟩

theorem State.stepBegin_throttle (s : State) (o : Order) (other : (s.stepBegin o).phase ≠ .prepare) :
    (s.stepBegin o).throttleHeld = (o.throttleHeld && decide (100 ≤ s.shown throttle)) := by
  rw [State.stepBegin_pedal] at other ⊢
  refine if_neg fun prepares => other ?_
  have kept : ¬s.Locks o := fun locks => by
    obtain overlap | sync := locks.2.2
    · exact absurd (prepares.symm.trans overlap) Phase.noConfusion
    · exact absurd (prepares.symm.trans sync) Phase.noConfusion
  exact (if_neg kept).trans prepares

/-- The dump writes no more than the dump. -/
theorem State.dumpStep_keeps (s : State) (o : Order) : (s.dumpStep o).throttleHeld = o.throttleHeld ∧
    (s.dumpStep o).phase = o.phase ∧ (s.dumpStep o).inRef = o.inRef ∧ (s.dumpStep o).outRef = o.outRef ∧
    (s.dumpStep o).flare = o.flare ∧ (s.dumpStep o).tieUp = o.tieUp ∧ (s.dumpStep o).forced = o.forced := by
  rw [State.dumpStep_only]
  exact ⟨rfl, rfl, rfl, rfl, rfl, rfl, rfl⟩

theorem orderStepLaw : OrderStepLaw := by
  intro s o n e step freed locks k
  have begun := s.stepBegin_pedal o
  obtain ⟨stepped, throttle, refs, flare, forced⟩ := s.runPhase_stepped (s.stepBegin o) (s.stepBegin o).phase
  have free : (s.stepBegin o).freed = true ↔ freed := by
    rw [begun]
    exact decide_eq_true_iff
  have drops : (s.stepBegin o).dropsAtOnce = true ↔ freed ∨ o.kind.isSwap = false := by
    rw [Order.dropsAtOnce_iff, free, begun]
  have runs := s.runPhase_runs (s.stepBegin o) (s.stepBegin o).phase freed (freed ∨ o.kind.isSwap = false) free drops
  have dumped := s.dumpStep_only (s.runPhase (s.stepBegin o)).1
  have dump := s.dumpStep_dump (s.runPhase (s.stepBegin o)).1
  obtain ⟨rfl, rfl⟩ := Prod.mk.inj ((s.stepOrder_eq o).symm.trans step)
  have only := Order.Stepped.only stepped begun dumped
  have whole := PhaseRuns.whole runs begun dumped
  obtain ⟨dumping, before⟩ := Order.Stepped.dumping stepped begun
  have count : (s.stepBegin o).count + 1 = k := by
    rw [begun]
    exact s.stepBegin_count o
  obtain ⟨throttle', phase', inRef', outRef', flare', tieUp', forced'⟩ := s.dumpStep_keeps (s.runPhase (s.stepBegin o)).1
  obtain ⟨inRef, outRef, flareB, tieUp, forcedB⟩ := s.stepBegin_keeps o
  have phase : (s.dumpStep (s.runPhase (s.stepBegin o)).1).phase = (s.stepBegin o).phase := by
    rw [phase', stepped]
  refine ⟨?_, count ▸ whole, ?_⟩
  · rw [s.stepBegin_count o] at only
    exact only
  rw [phase, throttle', inRef', outRef', flare', tieUp', forced', dump, dumping, before, ← inRef, ← outRef, ← flareB,
    ← tieUp, ← forcedB]
  refine ⟨?_, refs, flare, forced, fun idle => ?_, fun forward => ?_, fun reverse => ?_⟩
  · rw [throttle]
    by_cases prepares : (s.stepBegin o).phase = .prepare
    · rw [if_pos prepares, decide_eq_true_iff]
      exact ⟨fun high => ⟨high, .inl prepares⟩, And.left⟩
    · rw [if_neg prepares, s.stepBegin_throttle o prepares, Bool.and_eq_true, decide_eq_true_iff, and_comm]
      exact and_congr_right fun _ => ⟨.inr, fun h => h.resolve_left prepares⟩
  · rw [Order.dumps_iff.1 idle]
  · rw [Order.dumps_iff.1 forward]
    rfl
  · rw [Order.dumps_iff.1 reverse]
    rfl

/-! ### How an order ends (R71, R73, R80, R81) -/

theorem Order.falling_iff : (o.dumping.isSome = true ∧ o.dump ≠ some 0) ↔ ¬o.Dumps none ∧ o.dump ≠ some 0 := by
  rw [Order.dumps_iff, Option.isSome_iff_ne_none]

theorem Order.partResult_eq (o : Order) (e : StepEnd) : o.partResult e = match e with
    | .part x => some x
    | _ => o.partEnd := by
  cases e <;> rfl

theorem orderEndsLaw : OrderEndsLaw := by
  intro o e r falling part
  have same : part = o.partResult e := (o.partResult_eq e).symm
  refine ⟨fun falls => if_pos (Order.falling_iff.2 falls), fun stands => ?_⟩
  have past : r = if o.kind.isSwap then o.partResult e else if o.ending then some .aborted else _ :=
    if_neg (mt Order.falling_iff.1 stands)
  rw [past, same]
  refine ⟨fun swaps => if_pos (Order.swaps_iff.1 swaps), fun other ending => ?_, fun goesOn => ⟨?_, ?_, ?_⟩⟩
  · rw [if_neg (mt Order.swaps_iff.2 other), if_pos ending]
  · rintro (kind | kind) <;> simp only [kind, OrderKind.isSwap, goesOn, Bool.false_eq_true, if_false]
  · intro kind
    simp only [kind, OrderKind.isSwap, goesOn, Bool.false_eq_true, if_false]
  · intro kind
    simp only [kind, OrderKind.isSwap, goesOn, Bool.false_eq_true, if_false]
    cases e with
    | goesOn | phase p => rfl
    | part x =>
      cases x with
      | refusedSupply => rfl
      | completed | free | forcedLock | aborted => simp

end

end Sys2Proof.Machine

/-! ### A clutch step up to what follows its phase (R59, R61, R65, R67, R70, R147) -/

namespace Sys2Proof.Machine

section

variable {s t u v : State} {o n : Order} {e : StepEnd} {r : OrderResult}

/-! ### The end of a phase at the other blocks -/

theorem State.shiftGranted_started (order : s.shift.order = some o) (started : o.phase ≠ .waitSupply) :
    s.shiftGranted = s := by
  simp only [State.shiftGranted, order, if_neg started]

/-- A grant decision with an order that is under way, and no request of the front axle. -/
theorem State.decideFill_started (wait : s.arbiter.facWait = false) (order : s.shift.order = some o)
    (started : o.phase ≠ .waitSupply) :
    ∃ a : Arbiter, s.decideFill = { s with arbiter := a } ∧ a.facWait = false := by
  by_cases supply : (s.clutchHdr.supplyMin : Int) ≤ s.shown supplyPress
  · rw [State.decideFill_supplied supply, State.grantFac_none (s.grantShift_facWait.1.trans wait)]
    cases asks : s.arbiter.shiftWait with
    | none =>
      rw [State.grantShift_none asks]
      exact ⟨s.arbiter, rfl, wait⟩
    | some m =>
      by_cases enough : m ≤ s.arbiter.count .free
      · rw [State.grantShift_served asks enough,
          State.shiftGranted_started (s := { s with arbiter := s.arbiter.shiftServed m }) order started]
        exact ⟨_, rfl, (s.arbiter.shiftServed_facWait m).trans wait⟩
      · rw [State.grantShift_few asks (Nat.lt_of_not_le enough)]
        exact ⟨s.arbiter, rfl, wait⟩
  · rw [State.decideFill_refused supply]
    exact ⟨s.arbiter, rfl, wait⟩

/-- A decision with nothing asked for. -/
theorem State.decideFill_unasked (wait : s.arbiter.facWait = false) (asks : s.arbiter.shiftWait = none) :
    s.decideFill = s := by
  by_cases supply : (s.clutchHdr.supplyMin : Int) ≤ s.shown supplyPress
  · rw [State.decideFill_supplied supply, State.grantShift_none asks, State.grantFac_none wait]
  · rw [State.decideFill_refused supply]

theorem State.shiftWithdraw_idle (wait : s.arbiter.facWait = false) :
    s.shiftWithdraw = { s with arbiter := { s.arbiter with shiftWait := none } } :=
  State.decideFill_unasked (s := { s with arbiter := { s.arbiter with shiftWait := none } }) wait rfl

theorem State.closeWindow_only (s : State) : ∃ trailer, s.closeWindow = { s with trailer := trailer } := by
  rw [State.closeWindow]
  split
  · exact ⟨_, rfl⟩
  · exact ⟨s.trailer, rfl⟩

/-- The faults after a step's execution (R70). -/
def State.stepFaults (s : State) (n : Order) (e : StepEnd) : Faults :=
  if n.phase = .sync ∧ e ≠ .goesOn ∧ n.forced = true
  then n.oncoming.foldl (fun f d => f.raised .shiftSyncTimeout d.clutch (some (s.now + 1000 * Config.msTicks))) s.faults
  else s.faults

/-- What the end of a phase writes. -/
structure PhasePassed (s t : State) (n : Order) (e : StepEnd) : Prop where
  only : t = { s with arbiter := t.arbiter, trailer := t.trailer, faults := s.stepFaults n e }
  wait : t.arbiter.facWait = false
  withdrawn : n.phase = .waitSupply → ∀ r, e = .part r → t.arbiter = { s.arbiter with shiftWait := none }

theorem State.stepFaults_none (h : ¬(n.phase = .sync ∧ e ≠ .goesOn ∧ n.forced = true)) : s.stepFaults n e = s.faults := if_neg h

/-- A step that ends with a next phase or a part ends SYNC with a next phase. -/
def StepEnd.Fits (n : Order) (e : StepEnd) : Prop := n.phase = .sync → e = .goesOn ∨ ∃ p, e = .phase p

theorem State.phaseEnded_passed (wait : s.arbiter.facWait = false) (order : s.shift.order = some n) (fits : e.Fits n) :
    PhasePassed s (s.phaseEnded n e) n e := by
  have quiet (other : n.phase ≠ .sync ∨ e = .goesOn) : s.stepFaults n e = s.faults :=
    State.stepFaults_none fun h => other.elim (· h.1) h.2.1
  unfold State.phaseEnded
  split
  next _ waits =>
    rw [State.shiftWithdraw_idle wait]
    exact ⟨by rw [quiet (.inl (waits ▸ Phase.noConfusion))], wait, fun _ _ _ => rfl⟩
  next _ fill =>
    obtain ⟨a, only, wait'⟩ := State.decideFill_started (s := { s with arbiter := s.arbiter.giveBack .shift }) (o := n)
      wait order (fill ▸ Phase.noConfusion)
    rw [State.shiftGiveBack, only]
    exact ⟨by rw [quiet (.inl (fill ▸ Phase.noConfusion))], wait', fun _ _ => nofun⟩
  next p sync =>
    by_cases forced : n.forced = true
    · rw [if_pos forced, State.raiseSync_eq]
      refine ⟨?_, wait, fun _ _ => nofun⟩
      rw [State.stepFaults, if_pos ⟨sync, StepEnd.noConfusion, forced⟩]
      rfl
    · rw [if_neg forced]
      exact ⟨by rw [State.stepFaults_none fun h => forced h.2.2], wait, fun _ _ => nofun⟩
  next _ lock =>
    obtain ⟨trailer, only⟩ := s.closeWindow_only
    rw [only]
    exact ⟨by rw [quiet (.inl (lock ▸ Phase.noConfusion))], wait,
      fun waits => absurd (lock.symm.trans waits) Phase.noConfusion⟩
  next notWait _ notSync _ =>
    have goesOn := Classical.or_iff_not_imp_left.2 fun sync => (fits (Classical.not_not.1 sync)).resolve_right fun ⟨p, ends⟩ =>
      notSync p (Classical.not_not.1 sync) ends
    exact ⟨by rw [quiet goesOn], wait, fun waits r ends => absurd ends (notWait r waits)⟩

/-! ### Commands, count and time (R59, R61) -/

/-- The step of `s` in which the order comes to stand at `n`, up to its commands. -/
structure StepGiven (s u : State) (n : Order) (e : StepEnd) : Prop where
  only : u = { s with
    shift := { s.shift with order := some n, commands := (s.withOrder n).commandsNow, rolling := s.shift.rolling + 1 }
    arbiter := u.arbiter, trailer := u.trailer, faults := s.stepFaults n e }
  wait : u.arbiter.facWait = false
  withdrawn : n.phase = .waitSupply → ∀ r, e = .part r → u.arbiter = { s.arbiter with shiftWait := none }

theorem State.stepCommands_given (wait : s.arbiter.facWait = false) (fits : e.Fits n) :
    StepGiven s ((s.withOrder n).phaseEnded n e).stepCommands n e := by
  obtain ⟨only, wait', withdrawn⟩ := State.phaseEnded_passed (s := s.withOrder n) wait rfl fits
  generalize (s.withOrder n).phaseEnded n e = v at only wait' withdrawn
  refine ⟨?_, wait', withdrawn⟩
  rw [only]
  rfl

theorem State.runStep_eq (s : State) (o : Order) : s.runStep o =
    (match (s.stepOrder o).1.endsWith (s.stepOrder o).2 with
      | some r => (((s.withOrder (s.stepOrder o).1).phaseEnded (s.stepOrder o).1 (s.stepOrder o).2).stepCommands).endAtStep
          (s.stepOrder o).1 r
      | none => (((s.withOrder (s.stepOrder o).1).phaseEnded (s.stepOrder o).1 (s.stepOrder o).2).stepCommands).orderGoesOn
          (s.stepOrder o).1 (s.stepOrder o).2).writeClutchFrames (s.stepOrder o).1.phase.code := by
  rw [State.runStep] <;> rfl

/-- A step that ends its order. -/
theorem State.runStep_ends (wait : s.arbiter.facWait = false) (step : s.stepOrder o = (n, e)) (fits : e.Fits n)
    (ends : n.endsWith e = some r) : ∃ u, StepGiven s u n e ∧ s.runStep o = (u.endAtStep n r).framesWritten n.phase.code := by
  refine ⟨_, State.stepCommands_given wait fits, ?_⟩
  rw [State.runStep_eq, step]
  simp only [ends, State.writeClutchFrames_eq]

/-- A step that does not end its order. -/
theorem State.runStep_goesOn (wait : s.arbiter.facWait = false) (step : s.stepOrder o = (n, e)) (fits : e.Fits n)
    (stillOpen : n.endsWith e = none) : ∃ u, StepGiven s u n e ∧
      s.runStep o = (u.orderGoesOn n e).framesWritten n.phase.code := by
  refine ⟨_, State.stepCommands_given wait fits, ?_⟩
  rw [State.runStep_eq, step]
  simp only [stillOpen, State.writeClutchFrames_eq]

/-- What runs SYNC ends it with a next phase (R69, R70). -/
theorem PhaseRuns.fits {k : Nat} {freed drops : Prop} [Decidable freed] [Decidable drops]
    (h : PhaseRuns s o n e k freed drops) : e.Fits n := by
  intro sync
  rw [PhaseRuns, sync] at h
  obtain ⟨-, -, -, same⟩ := h
  rw [same]
  split
  · exact .inr ⟨_, rfl⟩
  · exact .inl rfl

end

end Sys2Proof.Machine

/-! ### T_fill_wait (R50, R65, R84) -/

namespace Sys2Proof.Machine

section

variable {s t u v : State} {o n : Order} {e : StepEnd} {r : OrderResult} {k : Nat}

/-! ### What a decision leaves of the target and of the order in flight -/

/-- Outside RUN and SETUP nothing is decided. -/
theorem State.decideIdle_off (notRun : s.mode.op ≠ .run) (notSetup : s.mode.op ≠ .setup) (byMotion : Bool) :
    s.decideIdle byMotion = s := by
  unfold State.decideIdle
  split
  next setup => exact absurd setup notSetup
  next run => exact absurd run notRun
  all_goals rfl

/-- Outside RUN the selector stays. -/
theorem State.decideIdle_gear (notRun : s.mode.op ≠ .run) (byMotion : Bool) : (s.decideIdle byMotion).gear = s.gear := by
  by_cases setup : s.mode.op = .setup
  · have free : s.decideIdle byMotion = if s.gear.dirState = .n then s.decideFree else s := by
      simp only [State.decideIdle, setup]
    rw [free]
    split
    · rw [State.decideFree]
      split
      · rfl
      · split
        · rfl
        · exact State.takeOrder_gear ..
    · rfl
  · rw [State.decideIdle_off notRun setup]

/-- With the direction engaged and the target reached, only a RELEASE changes anything. -/
theorem State.decideIdle_reached (engaged : s.gear.dirState ≠ .n) (reached : s.gear.target = s.gear.current)
    (request : s.mode.op = .run → s.intake.record.direction = s.gear.dirState ∨ s.intake.record.direction = .n) :
    (s.decideIdle false).gear.target = s.gear.target ∧
      (s.mode.op ≠ .run ∨ s.intake.record.direction = s.gear.dirState → s.decideIdle false = s) := by
  obtain ⟨d, dir⟩ := DirState.dir?_of_engaged engaged
  have state := DirState.dir?_some.1 dir
  by_cases run : s.mode.op = .run
  · have decision := s.decideIdle_run run false
    obtain same | neutral := request run
    · have still : s.decideIdle false = s := by
        rw [decision, same, dir]
        refine (if_pos (.inl rfl)).trans ?_
        unfold State.decideEngaged
        split
        next t c target current =>
          have equal : t = c := Option.some.inj (target.symm.trans (reached.trans current))
          rw [if_neg (not_not_intro equal), if_neg fun h => Bool.noConfusion h.1]
        next => rfl
      exact ⟨by rw [still], fun _ => still⟩
    · have release : s.decideIdle false = s.issueRelease d := by
        rw [decision, neutral, dir]
        rfl
      refine ⟨?_, fun h => absurd (neutral.symm.trans (h.resolve_left (not_not_intro run))) (Ne.symm engaged)⟩
      rw [release, (State.issueRelease_law state).1, reached]
      cases d <;> rfl
  · have gear := State.decideIdle_gear run false
    refine ⟨by rw [gear], fun _ => ?_⟩
    by_cases setup : s.mode.op = .setup
    · simp only [State.decideIdle, setup, if_neg engaged]
    · exact State.decideIdle_off run setup false

/-! ### The step on which WAIT_SUPPLY reaches T_fill_wait (R65) -/

/-- An order that waits for its supply on the last step it may. -/
structure WaitFails (s : State) (o : Order) : Prop where
  phase : o.phase = .waitSupply
  still : o.dumping = none
  kind : o.kind ≠ .release
  stillOpen : o.ending = false
  time : s.clutchHdr.fillWaitMs / 10 ≤ o.count + 1

/-- What the step makes of it. -/
structure WaitFailed (s : State) (o n : Order) : Prop where
  kind : n.kind = o.kind
  fromGear : n.fromGear = o.fromGear
  toGear : n.toGear = o.toGear
  lastLocked : n.lastLocked = o.lastLocked
  merged : n.merged = o.merged
  duration : n.duration = min 65535 (o.duration + 1)
  flare : n.flare = o.flare
  tieUp : n.tieUp = o.tieUp
  phase : n.phase = .waitSupply
  ends : n.endsWith (.part .refusedSupply) = some .refusedSupply

theorem WaitFails.step (h : WaitFails s o) : ∃ n, s.stepOrder o = (n, .part .refusedSupply) ∧ WaitFailed s o n := by
  obtain ⟨only, runs, -, -, flare, -⟩ := orderStepLaw s o (s.stepOrder o).1 (s.stepOrder o).2 rfl
  have waits : ¬s.Locks o := fun locks => by
    obtain overlap | sync := locks.2.2
    · exact absurd (h.phase.symm.trans overlap) Phase.noConfusion
    · exact absurd (h.phase.symm.trans sync) Phase.noConfusion
  have phase : (s.stepOrder o).1.phase = .waitSupply := by
    rw [only]
    exact (if_neg waits).trans h.phase
  have count : (if s.Locks o then 1 else o.count + 1) = o.count + 1 := if_neg waits
  have kept : (s.stepOrder o).1.kind = o.kind ∧ (s.stepOrder o).1.fromGear = o.fromGear ∧
      (s.stepOrder o).1.toGear = o.toGear ∧ (s.stepOrder o).1.lastLocked = o.lastLocked ∧
      (s.stepOrder o).1.merged = o.merged ∧ (s.stepOrder o).1.duration = min 65535 (o.duration + 1) ∧
      (s.stepOrder o).1.ending = o.ending ∧ (s.stepOrder o).1.dumping = o.dumping := by
    rw [only]
    exact ⟨rfl, rfl, rfl, rfl, rfl, rfl, rfl, rfl⟩
  have refused : (s.stepOrder o).2 = .part .refusedSupply := by
    rw [PhaseRuns, phase] at runs
    obtain ⟨-, -, last⟩ := runs
    exact last.trans (if_pos (count.symm ▸ h.time))
  have step : s.stepOrder o = ((s.stepOrder o).1, .part .refusedSupply) := by rw [← refused]
  generalize (s.stepOrder o).1 = n at *
  obtain ⟨kind, fromGear, toGear, lastLocked, merged, duration, ending, dumping⟩ := kept
  obtain ⟨flare, tieUp⟩ := flare (phase ▸ Phase.noConfusion)
  have ends : n.endsWith (.part .refusedSupply) = some .refusedSupply := by
    obtain ⟨-, stands⟩ := orderEndsLaw n (.part .refusedSupply)
    obtain ⟨swaps, -, stillOpen⟩ := stands fun falls => falls.1 (Order.dumps_iff.2 (dumping.trans h.still))
    obtain ⟨plain, -, shuttle⟩ := stillOpen (ending.trans h.stillOpen)
    cases which : n.kind with
    | swap1 => exact swaps (.inl which)
    | swap2 => exact swaps (.inr which)
    | engage => exact plain (.inl which)
    | free => exact plain (.inr which)
    | release => exact absurd (kind.symm.trans which) h.kind
    | shuttle => exact (shuttle which).trans (if_pos (.inl rfl))
  exact ⟨n, step, kind, fromGear, toGear, lastLocked, merged, duration, flare, tieUp, phase, ends⟩

/-! ### The selector after the end of an order -/

theorem State.reported_current (s : State) (o : Order) (r : OrderResult) (change : Int) :
    (s.reported o r change).gear.current = (s.gear.afterEnd o r).current :=
  State.keepTarget_current { s with shift := { s.shift with order := none }, gear := s.gear.afterEnd o r }

/-- A target that is the current gear stays under coupled braking. -/
theorem State.keepTarget_reached (idle : s.shift.order = none) (reached : s.gear.target = s.gear.current) :
    s.keepTarget = s := by
  have ref : s.referenceGear = s.gear.target := by
    simp only [State.referenceGear, idle, reached]
  have held : s.heldTarget = s.gear.target := by
    rw [State.heldTarget, ref]
    cases s.gear.target.bind (placeOn s.targetLadder) with
    | none => rfl
    | some p => exact if_neg (Nat.lt_irrefl p)
  rw [State.keepTarget, held]
  split
  · exact congrArg (fun g : Gear => { s with gear := g }) s.gear.withTarget_self
  · rfl

theorem State.endAtStep_refused (s : State) (n : Order) :
    s.endAtStep n .refusedSupply = (s.reported n .refusedSupply 0).decideIdle false := by
  have adapts : n.adapts .refusedSupply = false := by
    rw [Order.adapts, show (OrderResult.refusedSupply == .completed) = false from rfl, Bool.and_false]
    rfl
  have adapted : s.adapt n .refusedSupply = s := if_neg fun h => Bool.noConfusion (adapts.symm.trans h.1)
  have gone : s.syncGone n .refusedSupply = s := if_neg fun h => OrderResult.noConfusion h.2
  have change : offsetChange s s n = 0 := by
    rw [offsetChange]
    split
    · rfl
    · exact Int.sub_self _
  rw [State.endAtStep, adapted]
  simp only [gone, change, State.orderEnd_eq]

/-- A swap that is refused its supply goes back to its from gear, and so does the target (R50). -/
theorem State.reported_swapRefused (swap : o.kind = .swap1 ∨ o.kind = .swap2) (merged : o.merged = none)
    (clears : s.gear.clearAtEnd = false) : ∃ g : Gear, (s.reported o .refusedSupply 0).gear = g ∧
      g.target = o.fromGear ∧ g.current = o.fromGear ∧ g.dirState = s.gear.dirState := by
  have back : s.gear.afterEnd o .refusedSupply =
      ({ s.gear with current := o.fromGear } : Gear).withTarget o.fromGear := by
    rw [Gear.afterEnd_report clears, Gear.afterReport_swap swap, if_neg (by simp), if_pos merged]
  have target := Gear.target_withTarget { s.gear with current := o.fromGear } o.fromGear
  have current := Gear.withTarget_current { s.gear with current := o.fromGear } o.fromGear
  have dirState : (({ s.gear with current := o.fromGear } : Gear).withTarget o.fromGear).dirState = s.gear.dirState := by
    rw [Gear.withTarget_only]
  rw [← back] at target current dirState
  have kept := State.keepTarget_reached
    (s := { s with shift := { s.shift with order := none }, gear := s.gear.afterEnd o .refusedSupply }) rfl
    (target.trans current.symm)
  refine ⟨_, rfl, ?_⟩
  simp only [State.reported, kept]
  exact ⟨target, current, dirState⟩

/-- A refused order that is no swap leaves the target (R50). -/
theorem Gear.afterEnd_refused (other : o.kind.isSwap = false) (g : Gear) :
    (g.afterEnd o .refusedSupply).target = g.target := by
  rw [Gear.afterEnd]
  split
  · rfl
  · unfold Gear.afterReport
    split
    next kind => exact absurd other (by simp [kind, OrderKind.isSwap])
    next kind => exact absurd other (by simp [kind, OrderKind.isSwap])
    all_goals rfl

/-- A refused swap or FREE stands at its from gear (R50). -/
theorem Gear.afterEnd_refusedCurrent (move : o.kind.isSwap = true ∨ o.kind = .free) (g : Gear) :
    (g.afterEnd o .refusedSupply).current = if g.clearAtEnd = true then none else o.fromGear := by
  rw [Gear.afterEnd]
  split
  · rfl
  · obtain swap | kind := move
    · rw [Gear.afterReport_swap (OrderKind.isSwap_iff.1 swap), if_neg (by simp)]
      split
      · exact Gear.withTarget_current ..
      · rfl
    · simp only [Gear.afterReport, kind]
      rfl

/-- The state in which the decision at the end is made, when an order is refused its supply. -/
structure WaitRefused (s w : State) (o : Order) : Prop where
  notices : w.notices = s.notices
  idle : w.shift.order = none
  rolling : w.shift.rolling = s.shift.rolling + 1
  arbiter : w.arbiter = { s.arbiter with shiftWait := none }
  record : w.mail.shiftRecord = ⟨some ([byte1 (gearCode o.fromGear), byte1 (gearCode o.toGear), byte1 o.kind.code, byte1 4] ++
    bytes2 (min 65535 (o.duration + 1) : Nat) ++ [byte1 (observationFlags o.flare o.tieUp), byte1 0]), true⟩
  holdOff : w.gear.holdOff = some (w.now + (scheduleHeader (s.inUse .shiftSchedule)).holdOffMs * Config.msTicks)
  tables : w.tables = s.tables
  mode : w.mode = s.mode
  fac : w.fac = s.fac
  motion : w.motion = s.motion
  intake : w.intake = s.intake
  faults : w.faults = s.faults
  swap : o.kind.isSwap = true → s.gear.clearAtEnd = false →
    w.gear.target = o.fromGear ∧ w.gear.current = o.fromGear ∧ w.gear.dirState = s.gear.dirState
  other : o.kind.isSwap = false → s.motion.record.coupled = false → w.gear.target = s.gear.target
  current : o.kind.isSwap = true ∨ o.kind = .free →
    w.gear.current = if s.gear.clearAtEnd = true then none else o.fromGear

theorem WaitFailed.refused (h : WaitFailed s.stepTimed o n) (merged : o.merged = none ∨ o.kind.isSwap = false)
    (given : StepGiven s.stepTimed u n (.part .refusedSupply)) : WaitRefused s (u.reported n .refusedSupply 0) o := by
  have faults : s.stepTimed.stepFaults n (.part .refusedSupply) = s.faults :=
    State.stepFaults_none fun k => Phase.noConfusion (h.phase.symm.trans k.1)
  have arbiter := given.withdrawn h.phase _ rfl
  have kept : u.notices = s.notices ∧ u.shift.rolling = s.shift.rolling + 1 ∧ u.gear = s.gear ∧ u.tables = s.tables ∧
      u.mode = s.mode ∧ u.fac = s.fac ∧ u.motion = s.motion ∧ u.intake = s.intake ∧ u.faults = s.faults := by
    rw [given.only, faults]
    exact ⟨rfl, rfl, rfl, rfl, rfl, rfl, rfl, rfl, rfl⟩
  obtain ⟨notices, rolling, gear, tables, mode, fac, motion, intake, faults⟩ := kept
  refine {
    notices := notices, idle := rfl, rolling := rolling, arbiter := arbiter, tables := tables, mode := mode, fac := fac
    motion := motion, intake := intake, faults := faults, record := ?_, holdOff := ?_, swap := fun swap clears => ?_
    other := fun other free => ?_, current := fun move => ?_ }
  · rw [← h.fromGear, ← h.toGear, ← h.kind, ← h.duration, ← h.flare, ← h.tieUp]
    rfl
  · rw [← State.inUse_of_tables tables .shiftSchedule]
    rfl
  · have none := merged.resolve_right (swap ▸ Bool.noConfusion)
    obtain ⟨g, same, target, current, dirState⟩ := State.reported_swapRefused (s := u) (o := n)
      (OrderKind.isSwap_iff.1 (h.kind ▸ swap)) (h.merged.trans none) (gear ▸ clears)
    rw [same, target, current, dirState, h.fromGear, gear]
    exact ⟨rfl, rfl, rfl⟩
  · have same := Gear.afterEnd_refused (h.kind ▸ other) u.gear
    have free' : ({ u with shift := { u.shift with order := none }, gear := u.gear.afterEnd n .refusedSupply } : State).keepTarget =
        { u with shift := { u.shift with order := none }, gear := u.gear.afterEnd n .refusedSupply } :=
      State.keepTarget_free (motion ▸ free)
    simp only [State.reported, free']
    exact same.trans (congrArg Gear.target gear)
  · rw [u.reported_current, Gear.afterEnd_refusedCurrent (h.kind ▸ move), gear, h.fromGear]

theorem exec_fillWaitTimeout (reset : s.resetting = none) (due : s.fillWaitDue = true) (quiet : s.clutchStep.notices = []) :
    exec .fillWaitTimeout s = .next s.clutchStep :=
  (next_unlessReset reset).trans (congrArg Host.Outcome.next ((if_pos due).trans (State.settled_nil quiet)))

end

/-- Settles O45. -/
theorem fillWaitTimeoutWithdrawsTheOrder : Obligations.FillWaitTimeoutWithdrawsTheOrder := by
  refine ⟨?_, endReportLaw, orderEndLaw⟩
  intro s o ready order phase still kind stillOpen wait time
  obtain ⟨n, step, failed⟩ := WaitFails.step (s := s.stepTimed) ⟨phase, still, kind, stillOpen, time⟩
  obtain ⟨u, given, ran⟩ := State.runStep_ends (s := s.stepTimed) wait step
    (fun sync => absurd (failed.phase.symm.trans sync) Phase.noConfusion) failed.ends
  have stepped := (State.clutchStep_order order).trans ran
  rw [State.endAtStep_refused] at stepped
  have merged : o.merged = none ∨ o.kind.isSwap = false := by
    cases swap : o.kind.isSwap with
    | true => exact .inl ((Order.dumping_swap swap).symm.trans still)
    | false => exact .inr rfl
  have refused := failed.refused merged given
  have decides := State.decideIdle_decides (s := u.reported n .refusedSupply 0) given.wait
  have reached := State.decideIdle_reached (s := u.reported n .refusedSupply 0)
  have off (notRun notSetup) := State.decideIdle_off (s := u.reported n .refusedSupply 0) notRun notSetup false
  have kept (notRun) := State.decideIdle_gear (s := u.reported n .refusedSupply 0) notRun false
  generalize u.reported n .refusedSupply 0 = w at *
  generalize w.decideIdle false = t at *
  have same : t.notices = w.notices ∧ t.now = w.now ∧ t.mail = w.mail ∧ t.tables = w.tables ∧ t.mode = w.mode ∧
      t.fac = w.fac ∧ t.motion = w.motion ∧ t.intake = w.intake ∧ t.faults = w.faults := by
    rw [decides.only]
    exact ⟨rfl, rfl, rfl, rfl, rfl, rfl, rfl, rfl, rfl⟩
  obtain ⟨notices, now, mail, tables, mode, fac, motion, intake, faults⟩ := same
  have due : s.fillWaitDue = true := by
    simp only [State.fillWaitDue, order, phase, beq_self_eq_true, Bool.true_and]
    exact decide_eq_true time
  have quiet : s.clutchStep.notices = [] := by
    rw [stepped]
    exact notices.trans (refused.notices.trans ready.2)
  have taken : t.shift.order = none → t.arbiter = w.arbiter := fun none => by
    obtain ⟨-, arbiter, -⟩ | ⟨q, new⟩ := decides.order
    · exact arbiter
    · rw [new.shift] at none
      cases none
  have asked : w.arbiter.shiftWait = none := by rw [refused.arbiter]
  have rolling : t.shift.rolling = w.shift.rolling := by
    obtain ⟨shift, -, -⟩ | ⟨q, new⟩ := decides.order
    · rw [shift]
    · rw [new.shift]
  rw [refused.mode] at reached off kept
  rw [refused.intake] at reached
  refine ⟨_, exec_fillWaitTimeout ready.1 due quiet, ?_⟩
  rw [stepped]
  refine ⟨(congrArg Mailboxes.shiftRecord mail).trans refused.record, ?_, fun none => (taken none).trans refused.arbiter,
    fun q inFlight => ?_, fun notRun notSetup => ?_, fun swap clears engaged request => ?_, fun other notRun free => ?_,
    fun move => decides.current.trans (refused.current move), rolling.trans refused.rolling, tables.trans refused.tables,
    mode.trans refused.mode, fac.trans refused.fac, motion.trans refused.motion, intake.trans refused.intake,
    faults.trans refused.faults⟩
  · exact decides.holdOff.trans (refused.holdOff.trans (by rw [← now]; rfl))
  · obtain ⟨shift, -, -⟩ | ⟨q', new⟩ := decides.order
    · have none : t.shift.order = none := by rw [shift, refused.idle]
      exact absurd (inFlight.symm.trans none) nofun
    · obtain rfl : q' = q := by
        have found : t.shift.order = some q' := by rw [new.shift]
        exact Option.some.inj (found.symm.trans inFlight)
      exact ⟨new.duration, new.count, new.merged, new.request asked⟩
  · have none : t.shift.order = none := by rw [off notRun notSetup, refused.idle]
    exact none
  · obtain ⟨target, current, dirState⟩ := refused.swap swap clears
    rw [dirState] at reached
    obtain ⟨stays, still'⟩ := reached engaged (target.trans current.symm) request
    refine ⟨stays.trans target, fun h => ?_⟩
    have none : t.shift.order = none := by rw [still' h, refused.idle]
    exact none
  · exact (congrArg Gear.target (kept notRun)).trans (refused.other other free)

end Sys2Proof.Machine

/-! ### Clutch commands, and a clutch step with no order in flight (R59, R61, R72, R73, R75, R85, R166) -/

namespace Sys2Proof.Machine

section

variable {s t u v w : State} {n : Order} {ds : List Drive} {c x : Nat} {d : Dir}

/-! ### The pressure that an order gives a clutch -/

theorem driveOf_first (h : ∃ a b, ds = a ++ ⟨c, x⟩ :: b ∧ ∀ d ∈ a, d.clutch ≠ c) : driveOf ds c = some x := by
  obtain ⟨a, b, rfl, others⟩ := h
  have found : (a ++ ⟨c, x⟩ :: b).find? (fun d => d.clutch == c) = some ⟨c, x⟩ :=
    List.find?_eq_some_iff_append.2 ⟨beq_iff_eq.2 rfl, a, b, rfl, fun e mem => by simp [others e mem]⟩
  rw [driveOf, found]
  rfl

theorem driveOf_other (h : ∀ d ∈ ds, d.clutch ≠ c) : driveOf ds c = none := by
  have none : ds.find? (fun d => d.clutch == c) = none := List.find?_eq_none.2 fun e mem => by simp [h e mem]
  rw [driveOf, none]
  rfl

/-! ### The commands of a step (R61) -/

/-- The commands of `u` are those that `w` gives. -/
def State.CommandedBy (u w : State) : Prop := u.shift.commands = w.commandsNow

theorem State.CommandedBy.gear (h : u.CommandedBy w) (i : Fin 10) (low : i.val < 7) :
    u.command i = w.gearCommand i.val := by
  rw [State.command, h]
  exact (Vector.getElem_ofFn ..).trans (if_pos low)

theorem State.CommandedBy.forward (h : u.CommandedBy w) : u.command 7 = w.dirCommand .f := by
  rw [State.command, h]
  exact (Vector.getElem_ofFn ..).trans rfl

theorem State.CommandedBy.reverse (h : u.CommandedBy w) : u.command 8 = w.dirCommand .r := by
  rw [State.command, h]
  exact (Vector.getElem_ofFn ..).trans rfl

theorem State.CommandedBy.fac (h : u.CommandedBy w) : u.command 9 = w.facCommand := by
  rw [State.command, h]
  exact (Vector.getElem_ofFn ..).trans rfl

theorem State.CommandedBy.dir (h : u.CommandedBy w) {i : Fin 10} (place : i.val = if d = .f then 7 else 8) :
    u.command i = w.dirCommand d := by
  cases d with
  | f =>
    obtain rfl : i = 7 := Fin.ext place
    exact h.forward
  | r =>
    obtain rfl : i = 8 := Fin.ext place
    exact h.reverse

/-- A speed or range clutch that no order drives. -/
theorem held_iff (s : State) (g : Option Nat) (c p : Nat) :
    (if (gearClutches s.gearWords g).contains c then p else 0) = if c ∈ clutchesOf s g then p else 0 := by
  refine ite_of_iff ?_
  rw [List.contains_iff_mem, clutchesOf_eq]

theorem State.heldGear_order (order : s.shift.order = some n) :
    s.heldGear = if n.kind = .shuttle then n.lastLocked else s.gear.current := by
  simp only [State.heldGear, order]

/-- The clutches held besides those that the order drives. -/
def State.holds (s : State) (n : Order) (c : Nat) : Nat :=
  if c ∈ clutchesOf s (if n.kind = .shuttle then n.lastLocked else s.gear.current) then (s.prof c).pMax else 0

theorem State.gearCommand_order (order : s.shift.order = some n) (c : Nat) : s.gearCommand c =
    if n.driving && !n.engaging then (driveOf (n.oncoming ++ n.offgoing) c).getD (s.holds n c) else s.holds n c := by
  simp only [State.gearCommand, order, held_iff, State.heldGear_order order]
  rfl

theorem State.dirCommand_off (h : s.mode.op = .unloaded ∨ s.mode.op = .setup) (d : Dir) : s.dirCommand d = 0 := if_pos h

theorem State.dirCommand_order (order : s.shift.order = some n) (on : ¬(s.mode.op = .unloaded ∨ s.mode.op = .setup)) (d : Dir) :
    s.dirCommand d = if n.dumping = some d then s.limited d (n.dump.getD 0)
      else if n.engaging = true ∧ n.dir = d ∧ n.driving = true
        then (if n.phase = .fill then (driveOf n.oncoming (dirClutch d)).getD 0
          else s.limited d ((driveOf n.oncoming (dirClutch d)).getD 0))
      else if s.gear.dirState = d.state then s.limited d (s.prof (dirClutch d)).pMax else 0 := by
  refine (if_neg on).trans ?_
  simp only [order]

theorem State.dirCommand_idle (order : s.shift.order = none) (d : Dir) : s.dirCommand d =
    if s.gear.dirState = d.state ∧ s.mode.op ≠ .unloaded ∧ s.mode.op ≠ .setup
    then s.limited d (s.prof (dirClutch d)).pMax else 0 := by
  by_cases off : s.mode.op = .unloaded ∨ s.mode.op = .setup
  · rw [State.dirCommand_off off, if_neg fun h => off.elim h.2.1 h.2.2]
  · obtain ⟨loaded, notSetup⟩ := not_or.1 off
    refine (if_neg off).trans ?_
    simp only [order]
    exact ite_of_iff ⟨fun h => ⟨h, loaded, notSetup⟩, And.left⟩

/-- The commands of a step with an order in flight. -/
theorem State.CommandedBy.driven (h : u.CommandedBy w) (order : w.shift.order = some n) : DrivenCommands w n u.command := by
  refine ⟨fun i low => ⟨fun x drives given => ?_, fun free => ?_⟩, fun d i place => ⟨fun off => ?_, fun loaded notSetup =>
    ⟨fun dumps => ?_, fun kept drives x given => ?_, fun kept idle => ?_⟩⟩, h.fac⟩
  · have on : (n.driving && !n.engaging) = true := by
      rw [Bool.and_eq_true, Bool.not_eq_true', ← Bool.not_eq_true, ← Order.engages_iff]
      exact drives
    rw [h.gear i low, State.gearCommand_order order, if_pos on, driveOf_first given]
    rfl
  · rw [h.gear i low, State.gearCommand_order order]
    obtain off | other := free
    · have held : ¬(n.driving && !n.engaging) = true := by
        rw [Bool.and_eq_true, Bool.not_eq_true', ← Bool.not_eq_true, ← Order.engages_iff]
        exact off
      rw [if_neg held]
      rfl
    · rw [driveOf_other other, Option.getD_none, ite_self]
      rfl
  · rw [h.dir place, State.dirCommand_off off]
  all_goals
    rw [h.dir place, State.dirCommand_order order (not_or.2 ⟨loaded, notSetup⟩)]
    have clutch : dirClutch d = i.val := (dirClutch_eq d).trans place.symm
    simp only [Order.dumps_iff, Order.engages_iff] at *
  · rw [if_pos dumps, State.limited, clutch]
  · rw [if_neg kept, if_pos drives, clutch, driveOf_first given, State.limited, clutch]
    rfl
  · rw [if_neg kept, if_neg idle, State.limited, clutch]

/-! ### The frames of a step (R85, R166) -/

/-- What the frames and NEUT show of a step. -/
structure Framed (t : State) (phase : Nat) : Prop where
  frameA : t.mail.clutchA = ⟨some (((List.finRange 10).take 7).map (fun c => byte1 (t.command c / 10 : Nat)) ++
    [t.shift.rolling]), true⟩
  frameB : t.mail.clutchB = ⟨some ([byte1 (t.command 7 / 10 : Nat), byte1 (t.command 8 / 10 : Nat),
    byte1 (t.command 9 / 10 : Nat), byte1 phase, byte1 (gearCode t.gear.current), byte1 (gearCode t.gear.target),
    byte1 t.mode.op.code, t.shift.rolling]), true⟩
  neut : t.neut = true ↔ t.command 7 = 0 ∧ t.command 8 = 0 ∧ ∀ m, t.shift.order = some m → ¬ m.Engages

theorem State.framesWritten_framed (s : State) (phase : Nat) : Framed (s.framesWritten phase) phase := by
  refine ⟨rfl, rfl, ?_⟩
  have none : (s.shift.order.any Order.engaging) = false ↔ ∀ m, s.shift.order = some m → ¬m.Engages := by
    cases s.shift.order with
    | none => exact ⟨fun _ _ => nofun, fun _ => rfl⟩
    | some m =>
      refine ⟨fun off q same => ?_, fun h => Bool.eq_false_iff.2 (mt Order.engages_iff.2 (h m rfl))⟩
      obtain rfl := Option.some.inj same
      rw [Order.engages_iff]
      exact Bool.eq_false_iff.1 off
  refine (Bool.and_eq_true ..).to_iff.trans ?_
  rw [Bool.and_eq_true, beq_iff_eq, beq_iff_eq, Bool.not_eq_true', none, and_assoc]
  rfl

/-- A clutch step with no order in flight. -/
theorem idleClutchStep (ready : s.Ready) (idle : s.shift.order = none) :
    ∃ t, exec .clutchStep s = .next t ∧ Framed t 0 ∧ t.CommandedBy s.stepTimed ∧
      t = { s.expire s.shift.timer with
        shift := ⟨none, t.shift.commands, s.shift.rolling + 1,
          some (s.shift.timer.getD t.now + 10 * Config.msTicks)⟩
        mail := { s.mail with clutchA := t.mail.clutchA, clutchB := t.mail.clutchB }
        vLink := { s.vLink with offer := t.vLink.offer }, neut := t.neut } := by
  have stepped : s.clutchStep = s.stepTimed.stepCommands.framesWritten 0 := by
    rw [State.clutchStep_idle idle, State.writeClutchFrames_eq]
  have quiet : s.clutchStep.notices = [] := by
    rw [stepped]
    exact ready.2
  refine ⟨_, exec_clutchStep ready.1 quiet, ?_⟩
  rw [stepped]
  refine ⟨State.framesWritten_framed _ 0, rfl, ?_⟩
  rw [← idle]
  rfl

end

end Sys2Proof.Machine

/-! ### A clutch step whose order goes on (R60, R70, R76, R80) -/

namespace Sys2Proof.Machine

section

variable {s t u v : State} {o n m : Order} {e : StepEnd} {r : OrderResult} {p : Phase}

/-! ### What every step leaves and shows -/

/-- What follows a step's execution leaves all but the order of what the step has set. -/
structure StepKept (u t : State) : Prop where
  now : t.now = u.now
  notices : t.notices = u.notices
  shift : t.shift = { u.shift with order := t.shift.order }
  motion : t.motion = u.motion
  intake : t.intake = u.intake
  mode : t.mode = u.mode
  hitch : t.hitch = u.hitch
  fac : t.fac = u.fac
  supervisor : t.supervisor = u.supervisor

/-- A step in which the order comes to stand at `n`. -/
structure StepShown (s t : State) (n : Order) : Prop where
  now : t.now = max s.now (s.shift.timer.getD s.now)
  notices : t.notices = s.notices
  rolling : t.shift.rolling = s.shift.rolling + 1
  timer : t.shift.timer = some (s.shift.timer.getD t.now + 10 * Config.msTicks)
  commands : DrivenCommands s n t.command
  framed : Framed t n.phase.code
  motion : t.motion = s.motion
  intake : t.intake = s.intake
  mode : t.mode = s.mode
  hitch : t.hitch = s.hitch
  fac : t.fac = s.fac
  supervisor : t.supervisor = s.supervisor

theorem StepKept.shown (h : StepKept u t) (given : StepGiven s.stepTimed u n e) :
    StepShown s (t.framesWritten n.phase.code) n := by
  have shift : u.shift = { s.stepTimed.shift with
      order := some n, commands := (s.stepTimed.withOrder n).commandsNow, rolling := s.stepTimed.shift.rolling + 1 } := by
    rw [given.only]
  have kept : u.now = s.stepTimed.now ∧ u.notices = s.notices ∧ u.motion = s.motion ∧ u.intake = s.intake ∧
      u.mode = s.mode ∧ u.hitch = s.hitch ∧ u.fac = s.fac ∧ u.supervisor = s.supervisor := by
    rw [given.only]
    exact ⟨rfl, rfl, rfl, rfl, rfl, rfl, rfl, rfl⟩
  obtain ⟨now, notices, motion, intake, mode, hitch, fac, supervisor⟩ := kept
  have commanded : (t.framesWritten n.phase.code).CommandedBy (s.stepTimed.withOrder n) := by
    show t.shift.commands = _
    rw [h.shift, shift]
  exact {
    now := h.now.trans now
    notices := h.notices.trans notices
    rolling := by
      show t.shift.rolling = _
      rw [h.shift, shift]
      rfl
    timer := by
      show t.shift.timer = some (s.shift.timer.getD t.now + 10 * Config.msTicks)
      rw [h.shift, shift, h.now, now]
      rfl
    commands := commanded.driven rfl
    framed := State.framesWritten_framed t _
    motion := h.motion.trans motion, intake := h.intake.trans intake, mode := h.mode.trans mode
    hitch := h.hitch.trans hitch, fac := h.fac.trans fac, supervisor := h.supervisor.trans supervisor }

/-! ### The order goes on -/

/-- The order stands at `m`; the selector, the tables, the faults and the mailboxes stay. -/
structure GoesOn (u t : State) (m : Order) : Prop where
  only : t = { u with shift := t.shift, arbiter := t.arbiter, trailer := t.trailer, neut := t.neut }
  shift : t.shift = { u.shift with order := some m }

theorem GoesOn.kept (h : GoesOn u t m) : StepKept u t := by
  have shift : t.shift = { u.shift with order := t.shift.order } := by rw [h.shift]
  have same : t.now = u.now ∧ t.notices = u.notices ∧ t.motion = u.motion ∧ t.intake = u.intake ∧ t.mode = u.mode ∧
      t.hitch = u.hitch ∧ t.fac = u.fac ∧ t.supervisor = u.supervisor := by
    rw [h.only]
    exact ⟨rfl, rfl, rfl, rfl, rfl, rfl, rfl, rfl⟩
  obtain ⟨now, notices, motion, intake, mode, hitch, fac, supervisor⟩ := same
  exact ⟨now, notices, shift, motion, intake, mode, hitch, fac, supervisor⟩

theorem State.withOrder_goesOn (u : State) (m : Order) : GoesOn u (u.withOrder m) m := ⟨rfl, rfl⟩

/-- A sub-order that enters. -/
theorem State.enterOrder_goesOn (wait : u.arbiter.facWait = false) (o : Order) :
    ∃ m, GoesOn u (u.enterOrder o) m ∧ (m = o ∨ m = o.granted ∧ o.phase = .waitSupply) := by
  have entered := u.enterOrder_entered o
  have idle := State.enterOrder_idle wait o
  generalize u.enterOrder o = t at entered idle
  have only := entered.only
  rw [idle.fac, idle.notices] at only
  by_cases waits : o.phase = .waitSupply
  · by_cases supplied : u.Supplies o.oncoming.length
    · exact ⟨o.granted, ⟨only, (entered.granted waits supplied).1⟩, .inr ⟨rfl, waits⟩⟩
    · exact ⟨o, ⟨only, (entered.waits waits supplied).1⟩, .inl rfl⟩
  · exact ⟨o, ⟨only, (entered.idle waits).1⟩, .inl rfl⟩

/-- The ENGAGE of a SHUTTLE. -/
theorem SubOrderBegins.engages {q : Order} {locked : Option Nat} (kind : n.kind = .shuttle)
    (from' : q = { n.toEngage with lastLocked := locked, dump := q.dump })
    (h : m = q ∨ m = q.granted ∧ q.phase = .waitSupply) : SubOrderBegins n m .engage locked := by
  have clutch := congrArg (fun c => [(⟨c, 0⟩ : Drive)]) (dirClutch_eq n.dir)
  rw [from'] at h
  obtain rfl | ⟨rfl, -⟩ := h
  · exact ⟨kind, rfl, rfl, rfl, rfl, rfl, rfl, .inl rfl, clutch, rfl, .inl rfl⟩
  · refine ⟨kind, rfl, rfl, rfl, rfl, rfl, rfl, .inr rfl, clutch, rfl, .inr ?_⟩
    have engages : ({ n.toEngage with lastLocked := locked, dump := q.dump } : Order).engaging = true :=
      Order.engages_iff.1 (.inr ⟨kind, rfl⟩)
    exact if_pos engages

/-- Its FREE. -/
theorem SubOrderBegins.frees {q : Order} (kind : n.kind = .shuttle) (moves : n.moveOn ≠ [])
    (from' : q = { n.toMove with dump := q.dump }) (h : m = q ∨ m = q.granted ∧ q.phase = .waitSupply) :
    SubOrderBegins n m .free n.lastLocked := by
  have waits : n.toMove.phase = .waitSupply := if_neg moves
  rw [from'] at h
  obtain rfl | ⟨rfl, -⟩ := h
  · exact ⟨kind, rfl, rfl, rfl, rfl, rfl, rfl, .inl waits, rfl, rfl, .inl waits⟩
  · refine ⟨kind, rfl, rfl, rfl, rfl, rfl, rfl, .inr rfl, rfl, rfl, .inr ?_⟩
    have other : ¬({ n.toMove with dump := q.dump } : Order).engaging = true := fun engages => by
      obtain engage | ⟨-, sub⟩ := Order.engages_iff.2 engages
      · exact OrderKind.noConfusion (kind.symm.trans engage)
      · exact SubOrder.noConfusion sub
    exact if_neg other

/-- Where an order that has not ended goes (R60, R76, R80). -/
structure Order.Next (n m : Order) (e : StepEnd) : Prop where
  dumps : n.kind = .shuttle → n.sub = .dump → n.dump ≠ some 0 → m = n
  dumped : n.kind = .shuttle → n.sub = .dump → n.dump = some 0 →
    SubOrderBegins n m (if n.moveOn = [] then .engage else .free) n.lastLocked
  goesOn : n.kind ≠ .shuttle ∨ n.sub ≠ .dump → e = .goesOn → m = n
  phase : n.kind ≠ .shuttle ∨ n.sub ≠ .dump → ∀ p, e = .phase p → m = { n with phase := p, count := 0 }
  part : n.kind ≠ .shuttle ∨ n.sub ≠ .dump → ∀ x, e = .part x → n.kind = .shuttle → SubOrderBegins n m .engage n.toGear
  rest : n.kind ≠ .shuttle ∨ n.sub ≠ .dump → ∀ x, e = .part x → n.kind ≠ .shuttle → ∃ b, m =
    { n with phase := .dump, count := 0, partEnd := some x, driving := b } ∧
      (b = true ↔ n.driving = true ∧ (x = .completed ∨ x = .free ∨ x = .forcedLock))

theorem State.orderGoesOn_next (wait : u.arbiter.facWait = false) (order : u.shift.order = some n) (e : StepEnd) :
    ∃ m, GoesOn u (u.orderGoesOn n e) m ∧ n.Next m e := by
  by_cases dumping : n.kind = .shuttle ∧ n.sub = .dump
  · have out {P : Prop} (h : n.kind ≠ .shuttle ∨ n.sub ≠ .dump) : P :=
      h.elim (absurd dumping.1) (absurd dumping.2)
    by_cases zero : n.dump = some 0
    · have enters : u.orderGoesOn n e = u.enterOrder
          (if n.moveOn = [] then ({ n with dump := none } : Order).toEngage else ({ n with dump := none } : Order).toMove) :=
        (if_pos dumping).trans (if_pos zero)
      obtain ⟨m, goes, which⟩ := State.enterOrder_goesOn wait
        (if n.moveOn = [] then ({ n with dump := none } : Order).toEngage else ({ n with dump := none } : Order).toMove)
      rw [enters]
      refine ⟨m, goes, fun _ _ other => absurd zero other, fun kind _ _ => ?_, out, out, out, out⟩
      by_cases still : n.moveOn = []
      · rw [if_pos still] at which ⊢
        exact SubOrderBegins.engages kind rfl which
      · rw [if_neg still] at which ⊢
        exact SubOrderBegins.frees kind still rfl which
    · have stays : u.orderGoesOn n e = u := (if_pos dumping).trans (if_neg zero)
      rw [stays]
      refine ⟨n, ⟨rfl, ?_⟩, fun _ _ _ => rfl, fun _ _ same => absurd same zero, out, out, out, out⟩
      rw [← order]
  · have past (P : Prop) (kind : n.kind = .shuttle) (sub : n.sub = .dump) : P := absurd ⟨kind, sub⟩ dumping
    have phases : u.orderGoesOn n e = match e with
        | .goesOn => u
        | .phase p => u.withOrder { n with phase := p, count := 0 }
        | .part r =>
          if n.kind = .shuttle then u.enterOrder { n.toEngage with lastLocked := n.toGear }
          else u.withOrder { n with phase := .dump, count := 0, partEnd := some r, driving := n.driving && r.locking } :=
      if_neg dumping
    rw [phases]
    cases e with
    | goesOn =>
      refine ⟨n, ⟨rfl, ?_⟩, fun kind sub => past _ kind sub, fun kind sub => past _ kind sub, fun _ _ => rfl, fun _ _ => nofun,
        fun _ _ => nofun, fun _ _ => nofun⟩
      rw [← order]
    | phase p =>
      exact ⟨_, u.withOrder_goesOn _, fun kind sub => past _ kind sub, fun kind sub => past _ kind sub, fun _ => nofun,
        fun _ q same => StepEnd.phase.inj same ▸ rfl, fun _ _ => nofun, fun _ _ => nofun⟩
    | part r =>
      by_cases shuttle : n.kind = .shuttle
      · obtain ⟨m, goes, which⟩ := State.enterOrder_goesOn wait { n.toEngage with lastLocked := n.toGear }
        simp only [if_pos shuttle]
        exact ⟨m, goes, fun kind sub => past _ kind sub, fun kind sub => past _ kind sub, fun _ => nofun, fun _ _ => nofun,
          fun _ _ _ kind => SubOrderBegins.engages kind rfl which, fun _ _ _ other => absurd shuttle other⟩
      · simp only [if_neg shuttle]
        refine ⟨_, u.withOrder_goesOn _, fun kind sub => past _ kind sub, fun kind sub => past _ kind sub, fun _ => nofun,
          fun _ _ => nofun, fun _ _ _ kind => absurd kind shuttle, fun _ x same _ => ?_⟩
        obtain rfl := StepEnd.part.inj same
        exact ⟨_, rfl, by rw [Bool.and_eq_true, OrderResult.locking_iff]⟩

end

end Sys2Proof.Machine

/-! ### Adaptation (R77) -/

namespace Sys2Proof.Machine

section

variable {s : State} {o : Order} {ws : List TWord} {b c i j : Nat} {ms delta : Int} {w : TWord} {r : OrderResult}

/-! ### The offset in its word -/

theorem wordAt_set_same (h : i < ws.length) : wordAt (ws.set i w) i = w := by
  rw [wordAt, List.getD_eq_getElem?_getD, List.getElem?_set_self h]
  rfl

theorem wordAt_set_other (h : i ≠ j) : wordAt (ws.set i w) j = wordAt ws j := by
  rw [wordAt, List.getD_eq_getElem?_getD, List.getElem?_set_ne h, ← List.getD_eq_getElem?_getD]
  rfl

/-- Byte 3 of a word replaced: the number the word then is. -/
theorem withField_toNat (w : TWord) (v : Nat) :
    (withField w 24 8 v).toNat = w.toNat - w.toNat / 2 ^ 24 % 2 ^ 8 * 2 ^ 24 + v % 2 ^ 8 * 2 ^ 24 := by
  have bound := w.isLt
  rw [withField, fieldOf, BitVec.toNat_ofNat]
  refine Nat.mod_eq_of_lt ?_
  omega

theorem byteOf_withField_low (w : TWord) (v : Nat) {k : Nat} (low : k < 3) : byteOf (withField w 24 8 v) k = byteOf w k := by
  rw [byteOf, byteOf, fieldOf, fieldOf, withField_toNat]
  obtain rfl | rfl | rfl : k = 0 ∨ k = 1 ∨ k = 2 := by omega
  all_goals omega

theorem byteOf_withField_third (w : TWord) (v : Nat) : byteOf (withField w 24 8 v) 3 = v % 256 := by
  rw [byteOf, fieldOf, withField_toNat]
  omega

theorem signedOf_ofInt {x : Int} (low : -128 ≤ x) (high : x ≤ 127) : signedOf ((BitVec.ofInt 8 x).toNat % 256) 8 = x := by
  rw [signedOf, BitVec.toNat_ofInt]
  split <;> omega

/-- An offset that the table can hold: a multiple of 10 ms (R62). -/
def Holdable (ms : Int) : Prop := ∃ x : Int, ms = x * 10 ∧ -128 ≤ x ∧ x ≤ 127

theorem adaptedOffset_holdable (a : Int) (tens : delta = 10 ∨ delta = -10 ∨ delta = 0) :
    Holdable (adaptedOffset (a * 10) delta) := by
  refine ⟨adaptedOffset (a * 10) delta / 10, ?_⟩
  simp only [adaptedOffset, clamp]
  omega

theorem profile_tens (ws : List TWord) (c : Nat) : ∃ a : Int, (profile ws c).adapt = a * 10 := ⟨_, rfl⟩

/-- A clutch's own offset. -/
theorem profile_withAdapt_same (long : 2 * c + 2 < ws.length) (fits : Holdable ms) :
    profile (withAdapt ws c ms) c = { profile ws c with adapt := ms } := by
  obtain ⟨x, rfl, low, high⟩ := fits
  have tenth : x * 10 / 10 = x := Int.mul_ediv_cancel x (by decide)
  have header : wordAt (withAdapt ws c (x * 10)) (2 * c + 1) = wordAt ws (2 * c + 1) := wordAt_set_other (by omega)
  have offset : wordAt (withAdapt ws c (x * 10)) (2 * c + 2) =
      withField (wordAt ws (2 * c + 2)) 24 8 (BitVec.ofInt 8 (x * 10 / 10)).toNat := wordAt_set_same long
  simp only [profile, header, offset, byteOf_withField_low _ _ (show 0 < 3 by decide),
    byteOf_withField_low _ _ (show 1 < 3 by decide), byteOf_withField_low _ _ (show 2 < 3 by decide),
    byteOf_withField_third, tenth, signedOf_ofInt low high]

/-- Every other clutch is left. -/
theorem profile_withAdapt_other (other : c ≠ b) (ms : Int) : profile (withAdapt ws c ms) b = profile ws b := by
  have header : wordAt (withAdapt ws c ms) (2 * b + 1) = wordAt ws (2 * b + 1) := wordAt_set_other (by omega)
  have offset : wordAt (withAdapt ws c ms) (2 * b + 2) = wordAt ws (2 * b + 2) := wordAt_set_other (by omega)
  simp only [profile, header, offset]

/-- The offsets of a set of clutches. -/
theorem profile_adaptWords (tens : delta = 10 ∨ delta = -10 ∨ delta = 0) (cs : List Nat) (once : cs.Nodup)
    (ws : List TWord) (long : 2 * b + 2 < ws.length) : profile (adaptWords delta cs ws) b =
      if b ∈ cs then { profile ws b with adapt := adaptedOffset (profile ws b).adapt delta } else profile ws b := by
  induction cs generalizing ws with
  | nil => rfl
  | cons c cs ih =>
    obtain ⟨notIn, once⟩ := List.nodup_cons.1 once
    have rest := ih once (withAdapt ws c (adaptedOffset (profile ws c).adapt delta))
      (by rw [withAdapt, List.length_set]; exact long)
    have step : adaptWords delta (c :: cs) ws =
      adaptWords delta cs (withAdapt ws c (adaptedOffset (profile ws c).adapt delta)) := rfl
    rw [step, rest]
    by_cases same : c = b
    · subst same
      obtain ⟨a, tenfold⟩ := profile_tens ws c
      rw [if_neg notIn, if_pos List.mem_cons_self, profile_withAdapt_same long (tenfold ▸ adaptedOffset_holdable a tens)]
    · rw [profile_withAdapt_other same]
      refine ite_of_iff ?_
      rw [List.mem_cons]
      exact ⟨.inr, fun h => h.resolve_left (Ne.symm same)⟩

/-! ### The change at the end of an order -/

theorem adaptDelta_tens (flare tieUp : Bool) :
    adaptDelta flare tieUp = 10 ∨ adaptDelta flare tieUp = -10 ∨ adaptDelta flare tieUp = 0 := by
  cases flare <;> cases tieUp <;> simp [adaptDelta]

theorem adaptDelta_eq (flare tieUp : Bool) : adaptDelta flare tieUp =
    if flare = true ∧ tieUp = false then 10 else if tieUp = true ∧ flare = false then -10 else 0 := by
  cases flare <;> cases tieUp <;> rfl

theorem Order.adapts_iff : o.adapts r = true ↔ o.Swaps ∧ r = .completed ∧ o.freed = false ∧ o.throttleHeld = true := by
  rw [Order.adapts, Bool.and_eq_true, Bool.and_eq_true, Bool.and_eq_true, Order.swaps_iff, beq_iff_eq, Bool.not_eq_true',
    and_assoc, and_assoc]

/-- The order adapts at an end `r`. -/
def State.Adapts (s : State) (o : Order) (r : OrderResult) : Prop :=
  o.Swaps ∧ r = .completed ∧ o.freed = false ∧ o.throttleHeld = true ∧ s.tables.clutch.state = .committed

theorem State.adapts_iff : (o.adapts r = true ∧ s.tables.clutch.state = .committed) ↔ s.Adapts o r := by
  rw [Order.adapts_iff, State.Adapts, and_assoc, and_assoc, and_assoc]

theorem State.adapt_none (h : ¬s.Adapts o r) : s.adapt o r = s := if_neg (mt State.adapts_iff.1 h)

/-- The tables with the offsets of the oncoming clutches adapted. -/
def State.adaptedTables (s : State) (o : Order) : Tables := { s.tables with clutch := ⟨.committed,
  adaptWords (adaptDelta o.flare o.tieUp) (o.oncoming.map (·.clutch)) s.tables.clutch.loaded⟩ }

theorem State.adapt_some (h : s.Adapts o r) : s.adapt o r = { s with tables := s.adaptedTables o } := by
  obtain ⟨-, -, -, -, committed⟩ := id h
  refine (if_pos (State.adapts_iff.2 h)).trans ?_
  rw [State.adaptedTables, ← committed]
  rfl

/-- What the adapted table gives. -/
theorem State.prof_adapted {t : State} (tables : t.tables = s.adaptedTables o)
    (committed : s.tables.clutch.state = .committed) (long : s.tables.clutch.loaded.length = 21)
    (once : (o.oncoming.map (·.clutch)).Nodup) (inside : c < 10) :
    t.prof c = { s.prof c with
      adapt := if c ∈ o.oncoming.map (·.clutch)
        then max (-50) (min 50 ((s.prof c).adapt + adaptDelta o.flare o.tieUp)) else (s.prof c).adapt } := by
  have before : s.inUse .clutch = s.tables.clutch.loaded := by
    show (match s.tables.clutch.state with
      | .committed => s.tables.clutch.loaded
      | .resetDefault => TableId.resetWords .clutch
      | .uncommitted => TableId.resetWords .clutch) = _
    rw [committed]
  have after : t.inUse .clutch = adaptWords (adaptDelta o.flare o.tieUp) (o.oncoming.map (·.clutch)) s.tables.clutch.loaded := by
    rw [State.inUse, State.table, tables]
    rfl
  have adapted := profile_adaptWords (b := c) (adaptDelta_tens o.flare o.tieUp) _ once s.tables.clutch.loaded
    (by omega)
  rw [State.prof, State.prof, after, before, adapted]
  split <;> rfl

end

end Sys2Proof.Machine

/-! ### A clutch step whose order ends (R70, R71, R77, R84), and the clutch step as a whole -/

namespace Sys2Proof.Machine

section

variable {s t u v : State} {o n m : Order} {e : StepEnd} {r x : OrderResult}

/-! ### The end of an order at a step -/

/-- SHIFT_SYNC_TIMEOUT of a set of clutches is gone. -/
theorem State.goneAll_eq (s : State) (ds : List Drive) : ds.foldl (fun s d => s.gone .shiftSyncTimeout d.clutch) s =
    { s with faults := ds.foldl (fun f d => f.cleared .shiftSyncTimeout d.clutch) s.faults } := by
  induction ds generalizing s with
  | nil => rfl
  | cons d ds ih => exact ih (s.gone .shiftSyncTimeout d.clutch)

/-- The Fault List after the end of an order (R70). -/
def Faults.afterEnd (f : Faults) (n : Order) (x : OrderResult) : Faults :=
  if n.kind.isSwap ∧ x = .completed then n.oncoming.foldl (fun f d => f.cleared .shiftSyncTimeout d.clutch) f else f

theorem State.syncGone_eq (s : State) (n : Order) (x : OrderResult) :
    s.syncGone n x = { s with faults := s.faults.afterEnd n x } := by
  rw [State.syncGone, Faults.afterEnd]
  split
  · exact s.goneAll_eq n.oncoming
  · rfl

/-- Adaptation writes the clutch table alone. -/
theorem State.adapt_only (s : State) (n : Order) (x : OrderResult) : s.adapt n x = { s with tables := (s.adapt n x).tables } ∧
    (s.adapt n x).inUse .shiftSchedule = s.inUse .shiftSchedule := by
  by_cases adapts : s.Adapts n x
  · rw [State.adapt_some adapts]
    exact ⟨rfl, rfl⟩
  · rw [State.adapt_none adapts]
    exact ⟨rfl, rfl⟩

/-- A step that ends its order with result `x`. -/
structure StepEnds (u t : State) (n : Order) (x : OrderResult) : Prop where
  kept : StepKept u t
  tables : t.tables = (u.adapt n x).tables
  faults : t.faults = u.faults.afterEnd n x
  holdOff : t.gear.holdOff = some (t.now + (scheduleHeader (u.inUse .shiftSchedule)).holdOffMs * Config.msTicks)
  fresh : ∀ m, t.shift.order = some m → m.duration = 0 ∧ m.count = 0 ∧ m.merged = none
  record : t.mail.shiftRecord = ⟨some (shiftRecordData n x (offsetChange u (u.adapt n x) n)), true⟩

/-- What a decision leaves of a step. -/
theorem Decides.kept (h : Decides s t) : StepKept s t := by
  have same : t.now = s.now ∧ t.notices = s.notices ∧ t.motion = s.motion ∧ t.intake = s.intake ∧ t.mode = s.mode ∧
      t.hitch = s.hitch ∧ t.fac = s.fac ∧ t.supervisor = s.supervisor := by
    rw [h.only]
    exact ⟨rfl, rfl, rfl, rfl, rfl, rfl, rfl, rfl⟩
  obtain ⟨now, notices, motion, intake, mode, hitch, fac, supervisor⟩ := same
  refine ⟨now, notices, ?_, motion, intake, mode, hitch, fac, supervisor⟩
  obtain ⟨shift, -, -⟩ | ⟨o, new⟩ := h.order
  · rw [shift]
  · rw [new.shift]

/-- With no order before it, a decision leaves a new order or none. -/
theorem Decides.fresh (h : Decides s t) (idle : s.shift.order = none) (m : Order) (order : t.shift.order = some m) :
    m.duration = 0 ∧ m.count = 0 ∧ m.merged = none := by
  obtain ⟨shift, -, -⟩ | ⟨o, new⟩ := h.order
  · rw [shift, idle] at order
    cases order
  · rw [new.shift] at order
    obtain rfl := Option.some.inj order
    exact ⟨new.duration, new.count, new.merged⟩

theorem StepKept.trans (h : StepKept s t) (k : StepKept t u) : StepKept s u where
  now := k.now.trans h.now
  notices := k.notices.trans h.notices
  shift := by rw [k.shift, h.shift]
  motion := k.motion.trans h.motion
  intake := k.intake.trans h.intake
  mode := k.mode.trans h.mode
  hitch := k.hitch.trans h.hitch
  fac := k.fac.trans h.fac
  supervisor := k.supervisor.trans h.supervisor

theorem State.endAtStep_ends (wait : u.arbiter.facWait = false) (n : Order) (x : OrderResult) :
    StepEnds u (u.endAtStep n x) n x := by
  obtain ⟨only, schedule⟩ := u.adapt_only n x
  have ends : u.endAtStep n x =
      ((((u.adapt n x).syncGone n x).reported n x (offsetChange u (u.adapt n x) n))).decideIdle false := State.orderEnd_eq ..
  rw [State.syncGone_eq] at ends
  have decides := State.decideIdle_decides
    (s := ({ u.adapt n x with faults := (u.adapt n x).faults.afterEnd n x } : State).reported n x
      (offsetChange u (u.adapt n x) n)) (by rw [only]; exact wait)
  have kept : StepKept u (({ u.adapt n x with faults := (u.adapt n x).faults.afterEnd n x } : State).reported n x
      (offsetChange u (u.adapt n x) n)) := by
    rw [only]
    exact ⟨rfl, rfl, rfl, rfl, rfl, rfl, rfl, rfl, rfl⟩
  have faults : (u.adapt n x).faults = u.faults := by rw [only]
  rw [ends]
  have same : ∀ v w : State, Decides v w → w.tables = v.tables ∧ w.faults = v.faults ∧ w.mail = v.mail := fun v w h => by
    rw [h.only]
    exact ⟨rfl, rfl, rfl⟩
  obtain ⟨tables, faults', mail⟩ := same _ _ decides
  refine ⟨kept.trans decides.kept, tables, faults'.trans (congrArg (Faults.afterEnd · n x) faults), ?_,
    decides.fresh rfl, (congrArg Mailboxes.shiftRecord mail).trans rfl⟩
  rw [decides.holdOff, decides.kept.now, ← schedule]
  rfl

/-! ### The clutch step with an order in flight -/

theorem State.prof_of_tables (h : t.tables = s.tables) (c : Nat) : t.prof c = s.prof c :=
  congrArg (fun ws => profile ws c) (State.inUse_of_tables h .clutch)

theorem offsetChange_of_tables {s' t' : State} (before : s'.tables = s.tables) (after : t'.tables = t.tables) (n : Order) :
    offsetChange s' t' n = offsetChange s t n := by
  rw [offsetChange, offsetChange]
  split
  · rfl
  · rw [State.prof_of_tables before, State.prof_of_tables after]

/-- A step that leaves its order in flight, at `m`. -/
structure StepOpen (s t : State) (n m : Order) (e : StepEnd) : Prop where
  order : t.shift.order = some m
  next : n.Next m e
  gear : t.gear = s.gear
  record : t.mail.shiftRecord = s.mail.shiftRecord
  tables : t.tables = s.tables
  faults : t.faults = s.stepTimed.stepFaults n e

/-- A step that ends its order with result `x`, as the specification words it. -/
structure StepClosed (s t : State) (n : Order) (e : StepEnd) (x : OrderResult) : Prop where
  holdOff : t.gear.holdOff = some (t.now + (scheduleHeader (s.inUse .shiftSchedule)).holdOffMs * Config.msTicks)
  fresh : ∀ m, t.shift.order = some m → m.duration = 0 ∧ m.count = 0 ∧ m.merged = none
  record : t.mail.shiftRecord = ⟨some (shiftRecordData n x (offsetChange s t n)), true⟩
  kept : ¬s.Adapts n x → t.tables = s.tables
  adapted : s.Adapts n x → t.tables = s.adaptedTables n
  faults : t.faults = (s.stepTimed.stepFaults n e).afterEnd n x

theorem StepGiven.fields (h : StepGiven s.stepTimed u n e) : u.gear = s.gear ∧ u.mail = s.mail ∧ u.tables = s.tables ∧
    u.faults = s.stepTimed.stepFaults n e ∧ u.shift.order = some n := by
  rw [h.only]
  exact ⟨rfl, rfl, rfl, rfl, rfl⟩

theorem State.clutchStep_open (ready : s.Ready) (order : s.shift.order = some o) (wait : s.arbiter.facWait = false)
    (step : s.stepOrder o = (n, e)) (fits : e.Fits n) (goesOn : n.endsWith e = none) :
    ∃ t m, exec .clutchStep s = .next t ∧ StepShown s t n ∧ StepOpen s t n m e := by
  obtain ⟨u, given, ran⟩ := State.runStep_goesOn (s := s.stepTimed) wait step fits goesOn
  obtain ⟨gear, mail, tables, faults, inFlight⟩ := given.fields
  obtain ⟨m, goes, next⟩ := State.orderGoesOn_next given.wait inFlight e
  have stepped := (State.clutchStep_order order).trans ran
  have shown := goes.kept.shown given
  have same : (u.orderGoesOn n e).gear = u.gear ∧ (u.orderGoesOn n e).mail = u.mail ∧
      (u.orderGoesOn n e).tables = u.tables ∧ (u.orderGoesOn n e).faults = u.faults := by
    rw [goes.only]
    exact ⟨rfl, rfl, rfl, rfl⟩
  obtain ⟨gear', mail', tables', faults'⟩ := same
  have placed : (u.orderGoesOn n e).shift.order = some m := by rw [goes.shift]
  generalize u.orderGoesOn n e = t at *
  have record : t.mail.shiftRecord = s.mail.shiftRecord := congrArg Mailboxes.shiftRecord (mail'.trans mail)
  refine ⟨_, m, exec_clutchStep ready.1 ?_, stepped ▸ shown, ?_⟩
  · rw [stepped]
    exact shown.notices.trans ready.2
  · rw [stepped]
    exact ⟨placed, next, gear'.trans gear, record, tables'.trans tables,
      faults'.trans faults⟩

theorem State.clutchStep_closed (ready : s.Ready) (order : s.shift.order = some o) (wait : s.arbiter.facWait = false)
    (step : s.stepOrder o = (n, e)) (fits : e.Fits n) (ends : n.endsWith e = some x) :
    ∃ t, exec .clutchStep s = .next t ∧ StepShown s t n ∧ StepClosed s t n e x := by
  obtain ⟨u, given, ran⟩ := State.runStep_ends (s := s.stepTimed) wait step fits ends
  obtain ⟨gear, mail, tables, faults, inFlight⟩ := given.fields
  have ended := State.endAtStep_ends given.wait n x
  have stepped := (State.clutchStep_order order).trans ran
  have shown := ended.kept.shown given
  generalize u.endAtStep n x = t at *
  have same : u.Adapts n x ↔ s.Adapts n x := by rw [State.Adapts, State.Adapts, tables]
  refine ⟨_, exec_clutchStep ready.1 ?_, stepped ▸ shown, ?_⟩
  · rw [stepped]
    exact shown.notices.trans ready.2
  · rw [stepped]
    refine ⟨?_, ended.fresh, ?_, fun kept => ?_, fun adapts => ?_, ended.faults.trans (congrArg (Faults.afterEnd · n x) faults)⟩
    · rw [← State.inUse_of_tables tables .shiftSchedule]
      exact ended.holdOff
    · have change : offsetChange u (u.adapt n x) n = offsetChange s (t.framesWritten n.phase.code) n :=
        offsetChange_of_tables tables ended.tables.symm n
      rw [← change]
      exact ended.record
    · have still := ended.tables
      rw [State.adapt_none (mt same.1 kept)] at still
      exact still.trans tables
    · have changed := ended.tables
      rw [State.adapt_some (same.2 adapts)] at changed
      refine changed.trans ?_
      rw [State.adaptedTables, tables]
      rfl

/-- The faults of a step, in the words of `ClutchStepLaw`. -/
theorem StepShown.raised (h : StepShown s t n) : (if n.phase = .sync ∧ e ≠ .goesOn ∧ n.forced = true
      then n.oncoming.foldl (fun f d => f.raised .shiftSyncTimeout d.clutch (some (t.now + 1000 * Config.msTicks))) s.faults
      else s.faults) = s.stepTimed.stepFaults n e := by
  rw [h.now]
  rfl

theorem Faults.afterEnd_completed (h : n.Swaps ∧ x = .completed) (f : Faults) :
    f.afterEnd n x = n.oncoming.foldl (fun f d => f.cleared .shiftSyncTimeout d.clutch) f :=
  if_pos ⟨Order.swaps_iff.1 h.1, h.2⟩

theorem Faults.afterEnd_other (h : ¬(n.Swaps ∧ x = .completed)) (f : Faults) : f.afterEnd n x = f :=
  if_neg fun k => h ⟨Order.swaps_iff.2 k.1, k.2⟩

theorem clutchStepLaw : ClutchStepLaw := by
  intro s o n e ready order wait step r adapts delta
  obtain ⟨-, runs, -⟩ := orderStepLaw s o n e step
  have fits : e.Fits n := PhaseRuns.fits runs
  have sameDelta : adaptDelta n.flare n.tieUp = delta := adaptDelta_eq n.flare n.tieUp
  cases result : r with
  | none =>
    obtain ⟨t, m, ran, shown, goes⟩ := State.clutchStep_open ready order wait step fits result
    have frameB := shown.framed.frameB
    rw [shown.mode] at frameB
    have next := goes.next
    have stands {q : Order} (same : m = q) : t.shift.order = some q := same ▸ goes.order
    refine ⟨t, ran, shown.now, shown.rolling, shown.timer, shown.commands, shown.framed.neut, shown.framed.frameA, frameB,
      fun _ kind sub falls => stands (next.dumps kind sub falls),
      fun _ kind sub zero => ⟨m, goes.order, next.dumped kind sub zero⟩,
      fun _ other => ⟨fun same => stands (next.goesOn other same), fun p same => stands (next.phase other p same),
        fun x same kind => ⟨m, goes.order, next.part other x same kind⟩, fun x same kind => ?_⟩,
      fun _ => ⟨goes.gear, goes.record⟩, fun x => nofun, fun _ => goes.tables, fun h => absurd (result.symm.trans h.2.1) nofun,
      ⟨fun h => absurd h.2 nofun, fun _ => goes.faults.trans shown.raised.symm⟩,
      shown.motion, shown.intake, shown.mode, shown.hitch, shown.fac, shown.supervisor⟩
    obtain ⟨b, same, drives⟩ := next.rest other x same kind
    exact ⟨b, stands same, drives⟩
  | some x =>
    obtain ⟨t, ran, shown, closed⟩ := State.clutchStep_closed ready order wait step fits result
    have frameB := shown.framed.frameB
    rw [shown.mode] at frameB
    have completed : s.Adapts n x ↔ adapts := by
      show s.Adapts n x ↔ n.Swaps ∧ r = some .completed ∧ n.freed = false ∧ n.throttleHeld = true ∧
        s.tables.clutch.state = .committed
      rw [State.Adapts, result, Option.some_inj]
    have faults := closed.faults
    refine ⟨t, ran, shown.now, shown.rolling, shown.timer, shown.commands, shown.framed.neut, shown.framed.frameA, frameB,
      nofun, nofun, nofun, nofun, ?_, fun kept => closed.kept (mt completed.1 kept), fun h => ?_, ⟨fun h => ?_, fun h => ?_⟩,
      shown.motion, shown.intake, shown.mode, shown.hitch, shown.fac, shown.supervisor⟩
    · rintro y same
      obtain rfl := Option.some.inj same
      exact ⟨closed.holdOff, closed.fresh, closed.record⟩
    · have tables := closed.adapted (completed.2 h)
      refine ⟨?_, fun long once c inside => ?_⟩
      · rw [tables]
        rfl
      · rw [State.prof_adapted tables h.2.2.2.2 long once inside, sameDelta]
    · rw [faults, Faults.afterEnd_completed ⟨h.1, Option.some.inj h.2⟩]
      exact congrArg (fun f => n.oncoming.foldl (fun f d => f.cleared .shiftSyncTimeout d.clutch) f) shown.raised.symm
    · rw [faults, Faults.afterEnd_other fun k => h ⟨k.1, congrArg some k.2⟩]
      exact shown.raised.symm

/-- A speed or range clutch with no order in flight. -/
theorem State.gearCommand_idle (idle : s.shift.order = none) (c : Nat) : s.gearCommand c =
    if ∃ g, s.gear.current = some g ∧ (c = (gearEntry s.gearWords g).speed ∨ c = 4 + (gearEntry s.gearWords g).range)
    then (s.prof c).pMax else 0 := by
  have held : s.gearCommand c = if (gearClutches s.gearWords s.gear.current).contains c then (s.prof c).pMax else 0 := by
    simp only [State.gearCommand, State.heldGear, idle]
  rw [held]
  refine ite_of_iff ?_
  rw [List.contains_iff_mem]
  cases s.gear.current with
  | none => exact ⟨fun h => absurd h List.not_mem_nil, nofun⟩
  | some g =>
    refine List.mem_cons.trans ?_
    rw [List.mem_singleton]
    exact ⟨fun h => ⟨g, rfl, h⟩, fun ⟨g', same, h⟩ => Option.some.inj same ▸ h⟩

end

/-- Settles O44. -/
theorem idleClutchStepHoldsTheGear : Obligations.IdleClutchStepHoldsTheGear := by
  refine ⟨fun s ready idle => ?_, orderStepLaw, orderEndsLaw, clutchStepLaw⟩
  obtain ⟨t, ran, framed, commands, only⟩ := idleClutchStep ready idle
  have timed : s.stepTimed.shift.order = none := idle
  have forward := commands.forward
  have reverse := commands.reverse
  rw [State.dirCommand_idle timed] at forward reverse
  have gear : t.gear = s.gear ∧ t.mode = s.mode ∧ t.shift.order = none := by
    rw [only]
    exact ⟨rfl, rfl, rfl⟩
  obtain ⟨gear, mode, order⟩ := gear
  have frameB := framed.frameB
  rw [gear, mode] at frameB
  refine ⟨t, ran, only, fun c low => ?_, ⟨forward, reverse⟩, commands.fac, framed.neut.trans ?_, framed.frameA, frameB⟩
  · rw [commands.gear c low, State.gearCommand_idle timed]
    rfl
  · rw [order]
    exact and_congr_right fun _ => ⟨And.left, fun zero => ⟨zero, fun _ => nofun⟩⟩

end Sys2Proof.Machine
